-- ==== Sys2Proof/Word.lean ====
section
/-! DEFINITION. The data formats of R5 and R62: 16-bit words, 8-bit bytes, 4-bit register numbers. -/

namespace Sys2Proof

/-- 8-bit data, bits 7 to 0 (R62): one byte of the memory space or of the I/O space. -/
abbrev Byte := BitVec 8

/-- 16-bit data and 16-bit addresses, bits 15 to 0 (R5, R62). -/
abbrev Word := BitVec 16

/-- A register field Rd, Rs or Rx (R23, R111). -/
abbrev RegNum := BitVec 4

end Sys2Proof
end

