-- ==== Sys2Proof/Config.lean ====
section
/-! DEFINITION. What the spec leaves open as a whole: the kinds of memory access, and the free values. A free value is an
uninterpreted constant: no definition gives it, so whatever is proved holds for every value of it (log 32). -/

namespace Sys2Proof

/-- The kind of a memory access, the third argument of `MEM_PROTECT` (R72). -/
inductive AccessKind where
  | fetch
  | read
  | write
  deriving DecidableEq, Repr

/-- A 16-bit value the spec does not state, drawn with the counter `State.free`: the result of a shift by 16 or more (U8), the
results of a DIVL whose quotient does not fit (U7), the answer to an I/O read (U23). Uninterpreted (log 32). -/
opaque Config.freeWord : Nat → Word

/-- A bit the spec does not state, drawn with the counter `State.free`: a flag it leaves at any value (U7, U8). Uninterpreted (log 32). -/
opaque Config.freeBit : Nat → Bool

/-- The choice among several pending interrupts, which the spec leaves open (R333, U19): read modulo the number of sources
pending. Uninterpreted (log 25). -/
opaque Config.freeChoice : Nat → Nat

/-- `MEM_PROTECT` in user mode (R72, R345, U10), a predicate of the lower-limit register, the upper-limit register, the address
and the kind of access: unconstrained, so uninterpreted (log 19). `true` means the access is rejected. -/
opaque Config.userProtect : (lower upper addr : Word) → AccessKind → Bool

end Sys2Proof
end

