-- ==== Sys2Proof/Machine/State.lean ====
section
/-! DEFINITION. The state of the machine, as plain data, and the state after reset (10_state.md). -/

namespace Sys2Proof.Machine

/-- Why a step stops with a fault of the model. -/
inductive Fault where
  /-- Raised by any read of a memory byte that nothing has written and no image has given: it holds no value (R37, R381, U22, log 3).
  Safe: the model stops where the hardware goes on with some byte. -/
  | unwrittenByte
  /-- Raised by `step` in a state whose `halted` is 1: a halted CPU takes no further step (R26, R304, U21, log 28). Safe: it is the
  defined end of a run. -/
  | halted
  deriving DecidableEq, Repr

/-- Why a step has no meaning. -/
inductive Refusal where
  /-- Raised by an arm of `exec` whose instruction has no meaning yet. Safe: nothing is claimed of the instruction. -/
  | notModelled (mnemonic : String)
  /-- Raised by the fetch of a word with a defined OP whose "0h" field is not zero (R120, U12, log 29). Safe: the spec gives it no meaning. -/
  | mustBeZero
  /-- Raised by the fetch of a jump word with the condition field Dh (R121, U13, log 29). Safe: the spec gives it no meaning. -/
  | jumpConditionD
  /-- Raised by MULL and DIVL with an odd Rd (R201, U6, log 30). Safe: outside the definition of the instruction. -/
  | oddPair
  /-- Raised by PUSH and POP when Rd names the stack pointer in use (R281, R282, D35, U15, logs 14, 15). Safe: the spec gives the form no
  meaning. -/
  | stackPointerOperand
  /-- Raised by a write to the ROM, F000h to FFDFh (R67, R75, U18, log 20). Safe: the spec gives it no effect. -/
  | romWrite
  /-- Raised by any access to E000h to EFFFh, the reserved and video RAM region (R75, U18, log 20). Safe: the spec gives it no behaviour. -/
  | reservedRegion
  /-- Raised by a 16-bit IN or OUT at an odd port (R71, U16, log 21). Safe: the spec gives it no effect. -/
  | oddIoPort
  /-- Raised when a memory access of trap entry would itself raise an exception (R339, U28, log 26). Safe: the spec gives it no meaning. -/
  | trapEntryFault
  deriving DecidableEq, Repr

/-- The six exceptions (R321). -/
inductive Exc where
  | addressError
  | memoryViolation
  | zeroDivide
  | privilegeViolation
  | undefinedInstruction
  | svc
  deriving DecidableEq, Repr

/-- A cause of a trap: one of the ten interrupts or one of the six exceptions (R320). -/
inductive Cause where
  | interrupt (n : Fin 10)
  | exception (e : Exc)
  deriving DecidableEq, Repr

/-- What an access to memory gives: a value, an exception the machine takes, or a stop of the model. -/
inductive Access (α : Type) where
  | ok (a : α)
  | raised (e : Exc)
  | fault (r : Fault)
  | refused (r : Refusal)
  deriving DecidableEq, Repr

/-- The six bits of FLAG that exist (R28). -/
structure Flag where
  /-- Interrupt enable, bit 7. -/
  e : Bool
  /-- Privileged mode, bit 6. -/
  p : Bool
  /-- Overflow, bit 3. -/
  v : Bool
  /-- Carry, bit 2. -/
  c : Bool
  /-- Sign, bit 1. -/
  s : Bool
  /-- Zero, bit 0. -/
  z : Bool
  deriving DecidableEq, Repr

/-- The four result flags (R30). -/
structure Vcsz where
  v : Bool
  c : Bool
  s : Bool
  z : Bool
  deriving DecidableEq, Repr

/-- A register that a register number can name (R20, R22, R25). -/
inductive Reg where
  | g (n : Fin 13)
  | ssp
  | usp
  | pc
  deriving DecidableEq, Repr

/-- The memory space (R60): the bytes that hold a value, addresses strictly rising. An address that is not listed holds no value. -/
abbrev Memory := List Host.Cell

/-- The canonical form: addresses strictly rising, all of them in the 16-bit space. No entry can equal what an unlisted address reads
as, since that is no value. -/
abbrev Memory.wf (m : Memory) : Prop :=
  (m.map Prod.fst).Pairwise (· < ·) ∧ ∀ c ∈ m, c.1 < 65536

/-- An access to the I/O space (R87, R350): the port, the width in bytes, the value read or written. -/
inductive IoEvent where
  | input (port : Byte) (width : Nat) (value : Word)
  | output (port : Byte) (width : Nat) (value : Word)
  deriving DecidableEq, Repr

/-- The state of the machine: INVENTORY.md lists each field with the rule that names it. -/
structure State where
  /-- G0 to G12; G12 is FP (R20, R21). -/
  g : Vector Word 13
  /-- System stack pointer (R22). -/
  ssp : Word
  /-- User stack pointer (R22). -/
  usp : Word
  /-- Program counter (R25). -/
  pc : Word
  /-- FLAG (R28). -/
  flag : Flag
  /-- Set by HALT, cleared by reset only (R36 (a)). -/
  halted : Bool
  /-- One bit per interrupt source 0 to 9 (R36 (b)). -/
  pending : BitVec 10
  /-- Lower-limit register, port F4h (R34, R345). -/
  lowerLimit : Word
  /-- Upper-limit register, port F6h (R34, R345). -/
  upperLimit : Word
  /-- The memory space (R60, R74). -/
  mem : Memory
  /-- The I/O accesses performed, oldest first (R81, R87). -/
  ioTrace : List IoEvent
  /-- The environment's answers to the I/O reads to come (R350; the model's own field, log 22). -/
  ioAnswers : List Word
  /-- The interrupt requests the environment will make at the boundaries to come (R332, R350; the model's own field, log 24). -/
  requests : List (BitVec 10)
  /-- The counter the free values are drawn with (the model's own field, log 32). -/
  free : Nat
  deriving DecidableEq, Repr

/-- The machine right after reset (R37, R381). PC, P, E, `halted` and `pending` are the spec's (D29, log 36); G0 to G12, SSP, USP, V, C,
S, Z (log 1) and the limit registers (log 2) are zero by DESIGN CHOICE; no byte of memory holds a value (log 3). -/
def State.reset : State :=
  { g := Vector.replicate 13 0
    ssp := 0
    usp := 0
    pc := 0xF000
    flag := { e := false, p := true, v := false, c := false, s := false, z := false }
    halted := false
    pending := 0
    lowerLimit := 0
    upperLimit := 0
    mem := []
    ioTrace := []
    ioAnswers := []
    requests := []
    free := 0 }

/-- What a step and a meaning answer. -/
abbrev Result := Host.Outcome State Fault Refusal

/-! One update per field. Laws/State.lean says what each leaves. -/

/-- The state with another `g`. -/
def State.withG (st : State) (x : Vector Word 13) : State := { st with g := x }

/-- The state with another `ssp`. -/
def State.withSsp (st : State) (x : Word) : State := { st with ssp := x }

/-- The state with another `usp`. -/
def State.withUsp (st : State) (x : Word) : State := { st with usp := x }

/-- The state with another `pc`. -/
def State.withPc (st : State) (x : Word) : State := { st with pc := x }

/-- The state with another `flag`. -/
def State.withFlag (st : State) (x : Flag) : State := { st with flag := x }

/-- The state with another `halted`. -/
def State.withHalted (st : State) (x : Bool) : State := { st with halted := x }

/-- The state with another `pending`. -/
def State.withPending (st : State) (x : BitVec 10) : State := { st with pending := x }

/-- The state with another `lowerLimit`. -/
def State.withLowerLimit (st : State) (x : Word) : State := { st with lowerLimit := x }

/-- The state with another `upperLimit`. -/
def State.withUpperLimit (st : State) (x : Word) : State := { st with upperLimit := x }

/-- The state with another `mem`. -/
def State.withMem (st : State) (x : Memory) : State := { st with mem := x }

/-- The state with another `ioTrace`. -/
def State.withIoTrace (st : State) (x : List IoEvent) : State := { st with ioTrace := x }

/-- The state with another `ioAnswers`. -/
def State.withIoAnswers (st : State) (x : List Word) : State := { st with ioAnswers := x }

/-- The state with another `requests`. -/
def State.withRequests (st : State) (x : List (BitVec 10)) : State := { st with requests := x }

/-- The state with another `free`. -/
def State.withFree (st : State) (x : Nat) : State := { st with free := x }

end Sys2Proof.Machine
end

