-- ==== Sys2Proof/Syntax.lean ====
section
/-! DEFINITION. The syntax: one constructor of `Instr` per row of the opcode table (R118, R122, R127), the operand forms of
R150 to R161, and the view of an instruction as an operation applied to an operand form (R113). -/

namespace Sys2Proof

/-- The value operand of R152 to R158, modes 0 to 7 (R150). -/
inductive Ea where
  | direct (dsp : Word)
  | indexed (dsp : Word) (rx : RegNum)
  | immediate (imm : Word)
  | fpRel (d4 : BitVec 4)
  | register (rs : RegNum)
  | imm4 (i4 : BitVec 4)
  | indirect (rx : RegNum)
  | byteIndirect (rx : RegNum)
  deriving DecidableEq, Repr

/-- The store target of ST, modes 0, 1, 3, 6 and 7 (R159, R122). -/
inductive MemEa where
  | direct (dsp : Word)
  | indexed (dsp : Word) (rx : RegNum)
  | fpRel (d4 : BitVec 4)
  | indirect (rx : RegNum)
  | byteIndirect (rx : RegNum)
  deriving DecidableEq, Repr

/-- The target of a jump or CALL, modes 0, 1 and 6 (R160, R122). -/
inductive JumpEa where
  | direct (dsp : Word)
  | indexed (dsp : Word) (rx : RegNum)
  | indirect (rx : RegNum)
  deriving DecidableEq, Repr

/-- The port operand of IN and OUT, modes 0, 6 and 7 (R161, R122). -/
inductive PortEa where
  | direct (dsp : Word)
  | indirect (rx : RegNum)
  | byteIndirect (rx : RegNum)
  deriving DecidableEq, Repr

/-- The seventeen operations that take a value operand in all eight modes (R122). -/
inductive EaOp where
  | ld | add | sub | cmp | and | or | xor | adds | mul | div | mod | mull | divl | shla | shll | shra | shrl 
  deriving DecidableEq, Repr

/-- The fifteen jump conditions of R121 and R240; `always` is JMP. -/
inductive Cond where
  | z | c | m | o | gt | ge | le | lt | nz | nc | nm | no | hi | ls | always 
  deriving DecidableEq, Repr

/-- An instruction as an operation with its operand form: what the rows of R118 name before the mode is filled in. -/
inductive View where
  | no
  | ea (o : EaOp) (rd : RegNum) (e : Ea)
  | ldFlag (rd : RegNum)
  | st (rd : RegNum) (e : MemEa)
  | jump (cc : Cond) (e : JumpEa)
  | call (e : JumpEa)
  | input (rd : RegNum) (e : PortEa)
  | output (rd : RegNum) (e : PortEa)
  | push (rd : RegNum)
  | pop (rd : RegNum)
  | ret
  | reti
  | ei
  | di
  | svc
  | halt
  deriving DecidableEq, Repr

/-- One constructor per row of the opcode table (R127), in the table's order. The suffix of a name is the addressing mode of
R150: `Dir` Direct, `Idx` Indexed, `Imm` Immediate, `Fp` FP Relative, `Reg` Register, `Imm4` 4-bit immediate, `Ind` Register
Indirect, `Byte` Byte Register Indirect. -/
inductive Instr where
  | no
  | ldDir (rd : RegNum) (dsp : Word)
  | ldIdx (rd : RegNum) (dsp : Word) (rx : RegNum)
  | ldImm (rd : RegNum) (imm : Word)
  | ldFp (rd : RegNum) (d4 : BitVec 4)
  | ldReg (rd : RegNum) (rs : RegNum)
  | ldImm4 (rd : RegNum) (i4 : BitVec 4)
  | ldInd (rd : RegNum) (rx : RegNum)
  | ldByte (rd : RegNum) (rx : RegNum)
  | ldFlag (rd : RegNum)
  | stDir (rd : RegNum) (dsp : Word)
  | stIdx (rd : RegNum) (dsp : Word) (rx : RegNum)
  | stFp (rd : RegNum) (d4 : BitVec 4)
  | stInd (rd : RegNum) (rx : RegNum)
  | stByte (rd : RegNum) (rx : RegNum)
  | addDir (rd : RegNum) (dsp : Word)
  | addIdx (rd : RegNum) (dsp : Word) (rx : RegNum)
  | addImm (rd : RegNum) (imm : Word)
  | addFp (rd : RegNum) (d4 : BitVec 4)
  | addReg (rd : RegNum) (rs : RegNum)
  | addImm4 (rd : RegNum) (i4 : BitVec 4)
  | addInd (rd : RegNum) (rx : RegNum)
  | addByte (rd : RegNum) (rx : RegNum)
  | subDir (rd : RegNum) (dsp : Word)
  | subIdx (rd : RegNum) (dsp : Word) (rx : RegNum)
  | subImm (rd : RegNum) (imm : Word)
  | subFp (rd : RegNum) (d4 : BitVec 4)
  | subReg (rd : RegNum) (rs : RegNum)
  | subImm4 (rd : RegNum) (i4 : BitVec 4)
  | subInd (rd : RegNum) (rx : RegNum)
  | subByte (rd : RegNum) (rx : RegNum)
  | cmpDir (rd : RegNum) (dsp : Word)
  | cmpIdx (rd : RegNum) (dsp : Word) (rx : RegNum)
  | cmpImm (rd : RegNum) (imm : Word)
  | cmpFp (rd : RegNum) (d4 : BitVec 4)
  | cmpReg (rd : RegNum) (rs : RegNum)
  | cmpImm4 (rd : RegNum) (i4 : BitVec 4)
  | cmpInd (rd : RegNum) (rx : RegNum)
  | cmpByte (rd : RegNum) (rx : RegNum)
  | andDir (rd : RegNum) (dsp : Word)
  | andIdx (rd : RegNum) (dsp : Word) (rx : RegNum)
  | andImm (rd : RegNum) (imm : Word)
  | andFp (rd : RegNum) (d4 : BitVec 4)
  | andReg (rd : RegNum) (rs : RegNum)
  | andImm4 (rd : RegNum) (i4 : BitVec 4)
  | andInd (rd : RegNum) (rx : RegNum)
  | andByte (rd : RegNum) (rx : RegNum)
  | orDir (rd : RegNum) (dsp : Word)
  | orIdx (rd : RegNum) (dsp : Word) (rx : RegNum)
  | orImm (rd : RegNum) (imm : Word)
  | orFp (rd : RegNum) (d4 : BitVec 4)
  | orReg (rd : RegNum) (rs : RegNum)
  | orImm4 (rd : RegNum) (i4 : BitVec 4)
  | orInd (rd : RegNum) (rx : RegNum)
  | orByte (rd : RegNum) (rx : RegNum)
  | xorDir (rd : RegNum) (dsp : Word)
  | xorIdx (rd : RegNum) (dsp : Word) (rx : RegNum)
  | xorImm (rd : RegNum) (imm : Word)
  | xorFp (rd : RegNum) (d4 : BitVec 4)
  | xorReg (rd : RegNum) (rs : RegNum)
  | xorImm4 (rd : RegNum) (i4 : BitVec 4)
  | xorInd (rd : RegNum) (rx : RegNum)
  | xorByte (rd : RegNum) (rx : RegNum)
  | addsDir (rd : RegNum) (dsp : Word)
  | addsIdx (rd : RegNum) (dsp : Word) (rx : RegNum)
  | addsImm (rd : RegNum) (imm : Word)
  | addsFp (rd : RegNum) (d4 : BitVec 4)
  | addsReg (rd : RegNum) (rs : RegNum)
  | addsImm4 (rd : RegNum) (i4 : BitVec 4)
  | addsInd (rd : RegNum) (rx : RegNum)
  | addsByte (rd : RegNum) (rx : RegNum)
  | mulDir (rd : RegNum) (dsp : Word)
  | mulIdx (rd : RegNum) (dsp : Word) (rx : RegNum)
  | mulImm (rd : RegNum) (imm : Word)
  | mulFp (rd : RegNum) (d4 : BitVec 4)
  | mulReg (rd : RegNum) (rs : RegNum)
  | mulImm4 (rd : RegNum) (i4 : BitVec 4)
  | mulInd (rd : RegNum) (rx : RegNum)
  | mulByte (rd : RegNum) (rx : RegNum)
  | divDir (rd : RegNum) (dsp : Word)
  | divIdx (rd : RegNum) (dsp : Word) (rx : RegNum)
  | divImm (rd : RegNum) (imm : Word)
  | divFp (rd : RegNum) (d4 : BitVec 4)
  | divReg (rd : RegNum) (rs : RegNum)
  | divImm4 (rd : RegNum) (i4 : BitVec 4)
  | divInd (rd : RegNum) (rx : RegNum)
  | divByte (rd : RegNum) (rx : RegNum)
  | modDir (rd : RegNum) (dsp : Word)
  | modIdx (rd : RegNum) (dsp : Word) (rx : RegNum)
  | modImm (rd : RegNum) (imm : Word)
  | modFp (rd : RegNum) (d4 : BitVec 4)
  | modReg (rd : RegNum) (rs : RegNum)
  | modImm4 (rd : RegNum) (i4 : BitVec 4)
  | modInd (rd : RegNum) (rx : RegNum)
  | modByte (rd : RegNum) (rx : RegNum)
  | mullDir (rd : RegNum) (dsp : Word)
  | mullIdx (rd : RegNum) (dsp : Word) (rx : RegNum)
  | mullImm (rd : RegNum) (imm : Word)
  | mullFp (rd : RegNum) (d4 : BitVec 4)
  | mullReg (rd : RegNum) (rs : RegNum)
  | mullImm4 (rd : RegNum) (i4 : BitVec 4)
  | mullInd (rd : RegNum) (rx : RegNum)
  | mullByte (rd : RegNum) (rx : RegNum)
  | divlDir (rd : RegNum) (dsp : Word)
  | divlIdx (rd : RegNum) (dsp : Word) (rx : RegNum)
  | divlImm (rd : RegNum) (imm : Word)
  | divlFp (rd : RegNum) (d4 : BitVec 4)
  | divlReg (rd : RegNum) (rs : RegNum)
  | divlImm4 (rd : RegNum) (i4 : BitVec 4)
  | divlInd (rd : RegNum) (rx : RegNum)
  | divlByte (rd : RegNum) (rx : RegNum)
  | shlaDir (rd : RegNum) (dsp : Word)
  | shlaIdx (rd : RegNum) (dsp : Word) (rx : RegNum)
  | shlaImm (rd : RegNum) (imm : Word)
  | shlaFp (rd : RegNum) (d4 : BitVec 4)
  | shlaReg (rd : RegNum) (rs : RegNum)
  | shlaImm4 (rd : RegNum) (i4 : BitVec 4)
  | shlaInd (rd : RegNum) (rx : RegNum)
  | shlaByte (rd : RegNum) (rx : RegNum)
  | shllDir (rd : RegNum) (dsp : Word)
  | shllIdx (rd : RegNum) (dsp : Word) (rx : RegNum)
  | shllImm (rd : RegNum) (imm : Word)
  | shllFp (rd : RegNum) (d4 : BitVec 4)
  | shllReg (rd : RegNum) (rs : RegNum)
  | shllImm4 (rd : RegNum) (i4 : BitVec 4)
  | shllInd (rd : RegNum) (rx : RegNum)
  | shllByte (rd : RegNum) (rx : RegNum)
  | shraDir (rd : RegNum) (dsp : Word)
  | shraIdx (rd : RegNum) (dsp : Word) (rx : RegNum)
  | shraImm (rd : RegNum) (imm : Word)
  | shraFp (rd : RegNum) (d4 : BitVec 4)
  | shraReg (rd : RegNum) (rs : RegNum)
  | shraImm4 (rd : RegNum) (i4 : BitVec 4)
  | shraInd (rd : RegNum) (rx : RegNum)
  | shraByte (rd : RegNum) (rx : RegNum)
  | shrlDir (rd : RegNum) (dsp : Word)
  | shrlIdx (rd : RegNum) (dsp : Word) (rx : RegNum)
  | shrlImm (rd : RegNum) (imm : Word)
  | shrlFp (rd : RegNum) (d4 : BitVec 4)
  | shrlReg (rd : RegNum) (rs : RegNum)
  | shrlImm4 (rd : RegNum) (i4 : BitVec 4)
  | shrlInd (rd : RegNum) (rx : RegNum)
  | shrlByte (rd : RegNum) (rx : RegNum)
  | jzDir (dsp : Word)
  | jzIdx (dsp : Word) (rx : RegNum)
  | jzInd (rx : RegNum)
  | jcDir (dsp : Word)
  | jcIdx (dsp : Word) (rx : RegNum)
  | jcInd (rx : RegNum)
  | jmDir (dsp : Word)
  | jmIdx (dsp : Word) (rx : RegNum)
  | jmInd (rx : RegNum)
  | joDir (dsp : Word)
  | joIdx (dsp : Word) (rx : RegNum)
  | joInd (rx : RegNum)
  | jgtDir (dsp : Word)
  | jgtIdx (dsp : Word) (rx : RegNum)
  | jgtInd (rx : RegNum)
  | jgeDir (dsp : Word)
  | jgeIdx (dsp : Word) (rx : RegNum)
  | jgeInd (rx : RegNum)
  | jleDir (dsp : Word)
  | jleIdx (dsp : Word) (rx : RegNum)
  | jleInd (rx : RegNum)
  | jltDir (dsp : Word)
  | jltIdx (dsp : Word) (rx : RegNum)
  | jltInd (rx : RegNum)
  | jnzDir (dsp : Word)
  | jnzIdx (dsp : Word) (rx : RegNum)
  | jnzInd (rx : RegNum)
  | jncDir (dsp : Word)
  | jncIdx (dsp : Word) (rx : RegNum)
  | jncInd (rx : RegNum)
  | jnmDir (dsp : Word)
  | jnmIdx (dsp : Word) (rx : RegNum)
  | jnmInd (rx : RegNum)
  | jnoDir (dsp : Word)
  | jnoIdx (dsp : Word) (rx : RegNum)
  | jnoInd (rx : RegNum)
  | jhiDir (dsp : Word)
  | jhiIdx (dsp : Word) (rx : RegNum)
  | jhiInd (rx : RegNum)
  | jlsDir (dsp : Word)
  | jlsIdx (dsp : Word) (rx : RegNum)
  | jlsInd (rx : RegNum)
  | jmpDir (dsp : Word)
  | jmpIdx (dsp : Word) (rx : RegNum)
  | jmpInd (rx : RegNum)
  | callDir (dsp : Word)
  | callIdx (dsp : Word) (rx : RegNum)
  | callInd (rx : RegNum)
  | inDir (rd : RegNum) (dsp : Word)
  | inInd (rd : RegNum) (rx : RegNum)
  | inByte (rd : RegNum) (rx : RegNum)
  | outDir (rd : RegNum) (dsp : Word)
  | outInd (rd : RegNum) (rx : RegNum)
  | outByte (rd : RegNum) (rx : RegNum)
  | push (rd : RegNum)
  | pop (rd : RegNum)
  | ret
  | reti
  | ei
  | di
  | svc
  | halt
  deriving DecidableEq, Repr

end Sys2Proof
end

