-- ==== Sys2Proof/Machine/Flags.lean ====
section
/-! DEFINITION. The flag functions of R180, R200 and R220 to R224. Exact results are computed on integers and then narrowed. -/

namespace Sys2Proof.Machine

/-- S is bit 15 of a result (R180 `FlagsSZ`). -/
def signOf (r : Word) : Bool := r.getLsbD 15

/-- Z says that a result is 0000h (R180 `FlagsSZ`). -/
def zeroOf (r : Word) : Bool := r == 0#16

/-- `FlagsAdd` (R180, D6, log 10): C is the carry out of bit 15, V the signed overflow of the sum. -/
def flagsAdd (a b : Word) : Vcsz :=
  let r := a + b
  { v := signOf a == signOf b && signOf r != signOf a
    c := decide (65536 ≤ a.toNat + b.toNat)
    s := signOf r
    z := zeroOf r }

/-- `FlagsSub` (R180, D7): C is the borrow, V the signed overflow of the difference. -/
def flagsSub (a b : Word) : Vcsz :=
  let r := a - b
  { v := signOf a != signOf b && signOf r != signOf a
    c := decide (a.toNat < b.toNat)
    s := signOf r
    z := zeroOf r }

/-- `FlagsLogic` (R180, D8, log 10): C and V cleared. -/
def flagsLogic (r : Word) : Vcsz := { v := false, c := false, s := signOf r, z := zeroOf r }

/-- `FlagsMulDiv` (R200, D10, log 10): S and Z of the word written to Rd, C and V cleared. -/
def flagsMulDiv (r : Word) : Vcsz := { v := false, c := false, s := signOf r, z := zeroOf r }

/-- C after a left shift of `a` by `n` from 0 to 15: the last bit shifted out, 0 when n = 0 (R221, D16, log 10). -/
def carryLeft (a : Word) (n : Nat) : Bool := if n = 0 then false else a.getLsbD (16 - n)

/-- C after a right shift of `a` by `n` from 0 to 15: the last bit shifted out, 0 when n = 0 (R223, D16, log 10). -/
def carryRight (a : Word) (n : Nat) : Bool := if n = 0 then false else a.getLsbD (n - 1)

/-- The flags of a shift with result `r` and last bit out `c`: V is 0 (R220, D16, log 10). -/
def flagsShift (r : Word) (c : Bool) : Vcsz := { v := false, c := c, s := signOf r, z := zeroOf r }

/-- The truth value of a jump condition (R240). -/
def condHolds (cc : Cond) (f : Flag) : Bool :=
  match cc with
  | .z => f.z
  | .c => f.c
  | .m => f.s
  | .o => f.v
  | .gt => !(f.z || (f.s ^^ f.v))
  | .ge => !(f.s ^^ f.v)
  | .le => f.z || (f.s ^^ f.v)
  | .lt => f.s ^^ f.v
  | .nz => !f.z
  | .nc => !f.c
  | .nm => !f.s
  | .no => !f.v
  | .hi => !(f.z || f.c)
  | .ls => f.z || f.c
  | .always => true

end Sys2Proof.Machine
end

