-- ==== Sys2Proof/Decode.lean ====
section
/-! DEFINITION. The byte order, the decoder and the encoder: R63, R65, R110 to R122, R127. Everything here is total; an encoding
without an instruction is rejected by name. -/

namespace Sys2Proof

/-- A word from the byte at its even address and the byte at the next one: big-endian (R63, D1; log 5). -/
def wordOfBytes (hi lo : Byte) : Word := hi ++ lo

/-- The byte of a word that stands at its even address (R63). -/
def highByte (w : Word) : Byte := w.extractLsb' 8 8

/-- The byte of a word that stands at the odd address after it (R63). -/
def lowByte (w : Word) : Byte := w.extractLsb' 0 8

/-- The instruction as an operation applied to an operand form (R113). -/
def Instr.view : Instr → View
  | .no => .no
  | .ldDir rd dsp => .ea .ld rd (.direct dsp)
  | .ldIdx rd dsp rx => .ea .ld rd (.indexed dsp rx)
  | .ldImm rd imm => .ea .ld rd (.immediate imm)
  | .ldFp rd d4 => .ea .ld rd (.fpRel d4)
  | .ldReg rd rs => .ea .ld rd (.register rs)
  | .ldImm4 rd i4 => .ea .ld rd (.imm4 i4)
  | .ldInd rd rx => .ea .ld rd (.indirect rx)
  | .ldByte rd rx => .ea .ld rd (.byteIndirect rx)
  | .ldFlag rd => .ldFlag rd
  | .stDir rd dsp => .st rd (.direct dsp)
  | .stIdx rd dsp rx => .st rd (.indexed dsp rx)
  | .stFp rd d4 => .st rd (.fpRel d4)
  | .stInd rd rx => .st rd (.indirect rx)
  | .stByte rd rx => .st rd (.byteIndirect rx)
  | .addDir rd dsp => .ea .add rd (.direct dsp)
  | .addIdx rd dsp rx => .ea .add rd (.indexed dsp rx)
  | .addImm rd imm => .ea .add rd (.immediate imm)
  | .addFp rd d4 => .ea .add rd (.fpRel d4)
  | .addReg rd rs => .ea .add rd (.register rs)
  | .addImm4 rd i4 => .ea .add rd (.imm4 i4)
  | .addInd rd rx => .ea .add rd (.indirect rx)
  | .addByte rd rx => .ea .add rd (.byteIndirect rx)
  | .subDir rd dsp => .ea .sub rd (.direct dsp)
  | .subIdx rd dsp rx => .ea .sub rd (.indexed dsp rx)
  | .subImm rd imm => .ea .sub rd (.immediate imm)
  | .subFp rd d4 => .ea .sub rd (.fpRel d4)
  | .subReg rd rs => .ea .sub rd (.register rs)
  | .subImm4 rd i4 => .ea .sub rd (.imm4 i4)
  | .subInd rd rx => .ea .sub rd (.indirect rx)
  | .subByte rd rx => .ea .sub rd (.byteIndirect rx)
  | .cmpDir rd dsp => .ea .cmp rd (.direct dsp)
  | .cmpIdx rd dsp rx => .ea .cmp rd (.indexed dsp rx)
  | .cmpImm rd imm => .ea .cmp rd (.immediate imm)
  | .cmpFp rd d4 => .ea .cmp rd (.fpRel d4)
  | .cmpReg rd rs => .ea .cmp rd (.register rs)
  | .cmpImm4 rd i4 => .ea .cmp rd (.imm4 i4)
  | .cmpInd rd rx => .ea .cmp rd (.indirect rx)
  | .cmpByte rd rx => .ea .cmp rd (.byteIndirect rx)
  | .andDir rd dsp => .ea .and rd (.direct dsp)
  | .andIdx rd dsp rx => .ea .and rd (.indexed dsp rx)
  | .andImm rd imm => .ea .and rd (.immediate imm)
  | .andFp rd d4 => .ea .and rd (.fpRel d4)
  | .andReg rd rs => .ea .and rd (.register rs)
  | .andImm4 rd i4 => .ea .and rd (.imm4 i4)
  | .andInd rd rx => .ea .and rd (.indirect rx)
  | .andByte rd rx => .ea .and rd (.byteIndirect rx)
  | .orDir rd dsp => .ea .or rd (.direct dsp)
  | .orIdx rd dsp rx => .ea .or rd (.indexed dsp rx)
  | .orImm rd imm => .ea .or rd (.immediate imm)
  | .orFp rd d4 => .ea .or rd (.fpRel d4)
  | .orReg rd rs => .ea .or rd (.register rs)
  | .orImm4 rd i4 => .ea .or rd (.imm4 i4)
  | .orInd rd rx => .ea .or rd (.indirect rx)
  | .orByte rd rx => .ea .or rd (.byteIndirect rx)
  | .xorDir rd dsp => .ea .xor rd (.direct dsp)
  | .xorIdx rd dsp rx => .ea .xor rd (.indexed dsp rx)
  | .xorImm rd imm => .ea .xor rd (.immediate imm)
  | .xorFp rd d4 => .ea .xor rd (.fpRel d4)
  | .xorReg rd rs => .ea .xor rd (.register rs)
  | .xorImm4 rd i4 => .ea .xor rd (.imm4 i4)
  | .xorInd rd rx => .ea .xor rd (.indirect rx)
  | .xorByte rd rx => .ea .xor rd (.byteIndirect rx)
  | .addsDir rd dsp => .ea .adds rd (.direct dsp)
  | .addsIdx rd dsp rx => .ea .adds rd (.indexed dsp rx)
  | .addsImm rd imm => .ea .adds rd (.immediate imm)
  | .addsFp rd d4 => .ea .adds rd (.fpRel d4)
  | .addsReg rd rs => .ea .adds rd (.register rs)
  | .addsImm4 rd i4 => .ea .adds rd (.imm4 i4)
  | .addsInd rd rx => .ea .adds rd (.indirect rx)
  | .addsByte rd rx => .ea .adds rd (.byteIndirect rx)
  | .mulDir rd dsp => .ea .mul rd (.direct dsp)
  | .mulIdx rd dsp rx => .ea .mul rd (.indexed dsp rx)
  | .mulImm rd imm => .ea .mul rd (.immediate imm)
  | .mulFp rd d4 => .ea .mul rd (.fpRel d4)
  | .mulReg rd rs => .ea .mul rd (.register rs)
  | .mulImm4 rd i4 => .ea .mul rd (.imm4 i4)
  | .mulInd rd rx => .ea .mul rd (.indirect rx)
  | .mulByte rd rx => .ea .mul rd (.byteIndirect rx)
  | .divDir rd dsp => .ea .div rd (.direct dsp)
  | .divIdx rd dsp rx => .ea .div rd (.indexed dsp rx)
  | .divImm rd imm => .ea .div rd (.immediate imm)
  | .divFp rd d4 => .ea .div rd (.fpRel d4)
  | .divReg rd rs => .ea .div rd (.register rs)
  | .divImm4 rd i4 => .ea .div rd (.imm4 i4)
  | .divInd rd rx => .ea .div rd (.indirect rx)
  | .divByte rd rx => .ea .div rd (.byteIndirect rx)
  | .modDir rd dsp => .ea .mod rd (.direct dsp)
  | .modIdx rd dsp rx => .ea .mod rd (.indexed dsp rx)
  | .modImm rd imm => .ea .mod rd (.immediate imm)
  | .modFp rd d4 => .ea .mod rd (.fpRel d4)
  | .modReg rd rs => .ea .mod rd (.register rs)
  | .modImm4 rd i4 => .ea .mod rd (.imm4 i4)
  | .modInd rd rx => .ea .mod rd (.indirect rx)
  | .modByte rd rx => .ea .mod rd (.byteIndirect rx)
  | .mullDir rd dsp => .ea .mull rd (.direct dsp)
  | .mullIdx rd dsp rx => .ea .mull rd (.indexed dsp rx)
  | .mullImm rd imm => .ea .mull rd (.immediate imm)
  | .mullFp rd d4 => .ea .mull rd (.fpRel d4)
  | .mullReg rd rs => .ea .mull rd (.register rs)
  | .mullImm4 rd i4 => .ea .mull rd (.imm4 i4)
  | .mullInd rd rx => .ea .mull rd (.indirect rx)
  | .mullByte rd rx => .ea .mull rd (.byteIndirect rx)
  | .divlDir rd dsp => .ea .divl rd (.direct dsp)
  | .divlIdx rd dsp rx => .ea .divl rd (.indexed dsp rx)
  | .divlImm rd imm => .ea .divl rd (.immediate imm)
  | .divlFp rd d4 => .ea .divl rd (.fpRel d4)
  | .divlReg rd rs => .ea .divl rd (.register rs)
  | .divlImm4 rd i4 => .ea .divl rd (.imm4 i4)
  | .divlInd rd rx => .ea .divl rd (.indirect rx)
  | .divlByte rd rx => .ea .divl rd (.byteIndirect rx)
  | .shlaDir rd dsp => .ea .shla rd (.direct dsp)
  | .shlaIdx rd dsp rx => .ea .shla rd (.indexed dsp rx)
  | .shlaImm rd imm => .ea .shla rd (.immediate imm)
  | .shlaFp rd d4 => .ea .shla rd (.fpRel d4)
  | .shlaReg rd rs => .ea .shla rd (.register rs)
  | .shlaImm4 rd i4 => .ea .shla rd (.imm4 i4)
  | .shlaInd rd rx => .ea .shla rd (.indirect rx)
  | .shlaByte rd rx => .ea .shla rd (.byteIndirect rx)
  | .shllDir rd dsp => .ea .shll rd (.direct dsp)
  | .shllIdx rd dsp rx => .ea .shll rd (.indexed dsp rx)
  | .shllImm rd imm => .ea .shll rd (.immediate imm)
  | .shllFp rd d4 => .ea .shll rd (.fpRel d4)
  | .shllReg rd rs => .ea .shll rd (.register rs)
  | .shllImm4 rd i4 => .ea .shll rd (.imm4 i4)
  | .shllInd rd rx => .ea .shll rd (.indirect rx)
  | .shllByte rd rx => .ea .shll rd (.byteIndirect rx)
  | .shraDir rd dsp => .ea .shra rd (.direct dsp)
  | .shraIdx rd dsp rx => .ea .shra rd (.indexed dsp rx)
  | .shraImm rd imm => .ea .shra rd (.immediate imm)
  | .shraFp rd d4 => .ea .shra rd (.fpRel d4)
  | .shraReg rd rs => .ea .shra rd (.register rs)
  | .shraImm4 rd i4 => .ea .shra rd (.imm4 i4)
  | .shraInd rd rx => .ea .shra rd (.indirect rx)
  | .shraByte rd rx => .ea .shra rd (.byteIndirect rx)
  | .shrlDir rd dsp => .ea .shrl rd (.direct dsp)
  | .shrlIdx rd dsp rx => .ea .shrl rd (.indexed dsp rx)
  | .shrlImm rd imm => .ea .shrl rd (.immediate imm)
  | .shrlFp rd d4 => .ea .shrl rd (.fpRel d4)
  | .shrlReg rd rs => .ea .shrl rd (.register rs)
  | .shrlImm4 rd i4 => .ea .shrl rd (.imm4 i4)
  | .shrlInd rd rx => .ea .shrl rd (.indirect rx)
  | .shrlByte rd rx => .ea .shrl rd (.byteIndirect rx)
  | .jzDir dsp => .jump .z (.direct dsp)
  | .jzIdx dsp rx => .jump .z (.indexed dsp rx)
  | .jzInd rx => .jump .z (.indirect rx)
  | .jcDir dsp => .jump .c (.direct dsp)
  | .jcIdx dsp rx => .jump .c (.indexed dsp rx)
  | .jcInd rx => .jump .c (.indirect rx)
  | .jmDir dsp => .jump .m (.direct dsp)
  | .jmIdx dsp rx => .jump .m (.indexed dsp rx)
  | .jmInd rx => .jump .m (.indirect rx)
  | .joDir dsp => .jump .o (.direct dsp)
  | .joIdx dsp rx => .jump .o (.indexed dsp rx)
  | .joInd rx => .jump .o (.indirect rx)
  | .jgtDir dsp => .jump .gt (.direct dsp)
  | .jgtIdx dsp rx => .jump .gt (.indexed dsp rx)
  | .jgtInd rx => .jump .gt (.indirect rx)
  | .jgeDir dsp => .jump .ge (.direct dsp)
  | .jgeIdx dsp rx => .jump .ge (.indexed dsp rx)
  | .jgeInd rx => .jump .ge (.indirect rx)
  | .jleDir dsp => .jump .le (.direct dsp)
  | .jleIdx dsp rx => .jump .le (.indexed dsp rx)
  | .jleInd rx => .jump .le (.indirect rx)
  | .jltDir dsp => .jump .lt (.direct dsp)
  | .jltIdx dsp rx => .jump .lt (.indexed dsp rx)
  | .jltInd rx => .jump .lt (.indirect rx)
  | .jnzDir dsp => .jump .nz (.direct dsp)
  | .jnzIdx dsp rx => .jump .nz (.indexed dsp rx)
  | .jnzInd rx => .jump .nz (.indirect rx)
  | .jncDir dsp => .jump .nc (.direct dsp)
  | .jncIdx dsp rx => .jump .nc (.indexed dsp rx)
  | .jncInd rx => .jump .nc (.indirect rx)
  | .jnmDir dsp => .jump .nm (.direct dsp)
  | .jnmIdx dsp rx => .jump .nm (.indexed dsp rx)
  | .jnmInd rx => .jump .nm (.indirect rx)
  | .jnoDir dsp => .jump .no (.direct dsp)
  | .jnoIdx dsp rx => .jump .no (.indexed dsp rx)
  | .jnoInd rx => .jump .no (.indirect rx)
  | .jhiDir dsp => .jump .hi (.direct dsp)
  | .jhiIdx dsp rx => .jump .hi (.indexed dsp rx)
  | .jhiInd rx => .jump .hi (.indirect rx)
  | .jlsDir dsp => .jump .ls (.direct dsp)
  | .jlsIdx dsp rx => .jump .ls (.indexed dsp rx)
  | .jlsInd rx => .jump .ls (.indirect rx)
  | .jmpDir dsp => .jump .always (.direct dsp)
  | .jmpIdx dsp rx => .jump .always (.indexed dsp rx)
  | .jmpInd rx => .jump .always (.indirect rx)
  | .callDir dsp => .call (.direct dsp)
  | .callIdx dsp rx => .call (.indexed dsp rx)
  | .callInd rx => .call (.indirect rx)
  | .inDir rd dsp => .input rd (.direct dsp)
  | .inInd rd rx => .input rd (.indirect rx)
  | .inByte rd rx => .input rd (.byteIndirect rx)
  | .outDir rd dsp => .output rd (.direct dsp)
  | .outInd rd rx => .output rd (.indirect rx)
  | .outByte rd rx => .output rd (.byteIndirect rx)
  | .push rd => .push rd
  | .pop rd => .pop rd
  | .ret => .ret
  | .reti => .reti
  | .ei => .ei
  | .di => .di
  | .svc => .svc
  | .halt => .halt

/-- The instruction of an operation of R122 with a value operand. -/
def Instr.ofEa (o : EaOp) (rd : RegNum) (e : Ea) : Instr :=
  match o, e with
  | .ld, .direct dsp => .ldDir rd dsp
  | .ld, .indexed dsp rx => .ldIdx rd dsp rx
  | .ld, .immediate imm => .ldImm rd imm
  | .ld, .fpRel d4 => .ldFp rd d4
  | .ld, .register rs => .ldReg rd rs
  | .ld, .imm4 i4 => .ldImm4 rd i4
  | .ld, .indirect rx => .ldInd rd rx
  | .ld, .byteIndirect rx => .ldByte rd rx
  | .add, .direct dsp => .addDir rd dsp
  | .add, .indexed dsp rx => .addIdx rd dsp rx
  | .add, .immediate imm => .addImm rd imm
  | .add, .fpRel d4 => .addFp rd d4
  | .add, .register rs => .addReg rd rs
  | .add, .imm4 i4 => .addImm4 rd i4
  | .add, .indirect rx => .addInd rd rx
  | .add, .byteIndirect rx => .addByte rd rx
  | .sub, .direct dsp => .subDir rd dsp
  | .sub, .indexed dsp rx => .subIdx rd dsp rx
  | .sub, .immediate imm => .subImm rd imm
  | .sub, .fpRel d4 => .subFp rd d4
  | .sub, .register rs => .subReg rd rs
  | .sub, .imm4 i4 => .subImm4 rd i4
  | .sub, .indirect rx => .subInd rd rx
  | .sub, .byteIndirect rx => .subByte rd rx
  | .cmp, .direct dsp => .cmpDir rd dsp
  | .cmp, .indexed dsp rx => .cmpIdx rd dsp rx
  | .cmp, .immediate imm => .cmpImm rd imm
  | .cmp, .fpRel d4 => .cmpFp rd d4
  | .cmp, .register rs => .cmpReg rd rs
  | .cmp, .imm4 i4 => .cmpImm4 rd i4
  | .cmp, .indirect rx => .cmpInd rd rx
  | .cmp, .byteIndirect rx => .cmpByte rd rx
  | .and, .direct dsp => .andDir rd dsp
  | .and, .indexed dsp rx => .andIdx rd dsp rx
  | .and, .immediate imm => .andImm rd imm
  | .and, .fpRel d4 => .andFp rd d4
  | .and, .register rs => .andReg rd rs
  | .and, .imm4 i4 => .andImm4 rd i4
  | .and, .indirect rx => .andInd rd rx
  | .and, .byteIndirect rx => .andByte rd rx
  | .or, .direct dsp => .orDir rd dsp
  | .or, .indexed dsp rx => .orIdx rd dsp rx
  | .or, .immediate imm => .orImm rd imm
  | .or, .fpRel d4 => .orFp rd d4
  | .or, .register rs => .orReg rd rs
  | .or, .imm4 i4 => .orImm4 rd i4
  | .or, .indirect rx => .orInd rd rx
  | .or, .byteIndirect rx => .orByte rd rx
  | .xor, .direct dsp => .xorDir rd dsp
  | .xor, .indexed dsp rx => .xorIdx rd dsp rx
  | .xor, .immediate imm => .xorImm rd imm
  | .xor, .fpRel d4 => .xorFp rd d4
  | .xor, .register rs => .xorReg rd rs
  | .xor, .imm4 i4 => .xorImm4 rd i4
  | .xor, .indirect rx => .xorInd rd rx
  | .xor, .byteIndirect rx => .xorByte rd rx
  | .adds, .direct dsp => .addsDir rd dsp
  | .adds, .indexed dsp rx => .addsIdx rd dsp rx
  | .adds, .immediate imm => .addsImm rd imm
  | .adds, .fpRel d4 => .addsFp rd d4
  | .adds, .register rs => .addsReg rd rs
  | .adds, .imm4 i4 => .addsImm4 rd i4
  | .adds, .indirect rx => .addsInd rd rx
  | .adds, .byteIndirect rx => .addsByte rd rx
  | .mul, .direct dsp => .mulDir rd dsp
  | .mul, .indexed dsp rx => .mulIdx rd dsp rx
  | .mul, .immediate imm => .mulImm rd imm
  | .mul, .fpRel d4 => .mulFp rd d4
  | .mul, .register rs => .mulReg rd rs
  | .mul, .imm4 i4 => .mulImm4 rd i4
  | .mul, .indirect rx => .mulInd rd rx
  | .mul, .byteIndirect rx => .mulByte rd rx
  | .div, .direct dsp => .divDir rd dsp
  | .div, .indexed dsp rx => .divIdx rd dsp rx
  | .div, .immediate imm => .divImm rd imm
  | .div, .fpRel d4 => .divFp rd d4
  | .div, .register rs => .divReg rd rs
  | .div, .imm4 i4 => .divImm4 rd i4
  | .div, .indirect rx => .divInd rd rx
  | .div, .byteIndirect rx => .divByte rd rx
  | .mod, .direct dsp => .modDir rd dsp
  | .mod, .indexed dsp rx => .modIdx rd dsp rx
  | .mod, .immediate imm => .modImm rd imm
  | .mod, .fpRel d4 => .modFp rd d4
  | .mod, .register rs => .modReg rd rs
  | .mod, .imm4 i4 => .modImm4 rd i4
  | .mod, .indirect rx => .modInd rd rx
  | .mod, .byteIndirect rx => .modByte rd rx
  | .mull, .direct dsp => .mullDir rd dsp
  | .mull, .indexed dsp rx => .mullIdx rd dsp rx
  | .mull, .immediate imm => .mullImm rd imm
  | .mull, .fpRel d4 => .mullFp rd d4
  | .mull, .register rs => .mullReg rd rs
  | .mull, .imm4 i4 => .mullImm4 rd i4
  | .mull, .indirect rx => .mullInd rd rx
  | .mull, .byteIndirect rx => .mullByte rd rx
  | .divl, .direct dsp => .divlDir rd dsp
  | .divl, .indexed dsp rx => .divlIdx rd dsp rx
  | .divl, .immediate imm => .divlImm rd imm
  | .divl, .fpRel d4 => .divlFp rd d4
  | .divl, .register rs => .divlReg rd rs
  | .divl, .imm4 i4 => .divlImm4 rd i4
  | .divl, .indirect rx => .divlInd rd rx
  | .divl, .byteIndirect rx => .divlByte rd rx
  | .shla, .direct dsp => .shlaDir rd dsp
  | .shla, .indexed dsp rx => .shlaIdx rd dsp rx
  | .shla, .immediate imm => .shlaImm rd imm
  | .shla, .fpRel d4 => .shlaFp rd d4
  | .shla, .register rs => .shlaReg rd rs
  | .shla, .imm4 i4 => .shlaImm4 rd i4
  | .shla, .indirect rx => .shlaInd rd rx
  | .shla, .byteIndirect rx => .shlaByte rd rx
  | .shll, .direct dsp => .shllDir rd dsp
  | .shll, .indexed dsp rx => .shllIdx rd dsp rx
  | .shll, .immediate imm => .shllImm rd imm
  | .shll, .fpRel d4 => .shllFp rd d4
  | .shll, .register rs => .shllReg rd rs
  | .shll, .imm4 i4 => .shllImm4 rd i4
  | .shll, .indirect rx => .shllInd rd rx
  | .shll, .byteIndirect rx => .shllByte rd rx
  | .shra, .direct dsp => .shraDir rd dsp
  | .shra, .indexed dsp rx => .shraIdx rd dsp rx
  | .shra, .immediate imm => .shraImm rd imm
  | .shra, .fpRel d4 => .shraFp rd d4
  | .shra, .register rs => .shraReg rd rs
  | .shra, .imm4 i4 => .shraImm4 rd i4
  | .shra, .indirect rx => .shraInd rd rx
  | .shra, .byteIndirect rx => .shraByte rd rx
  | .shrl, .direct dsp => .shrlDir rd dsp
  | .shrl, .indexed dsp rx => .shrlIdx rd dsp rx
  | .shrl, .immediate imm => .shrlImm rd imm
  | .shrl, .fpRel d4 => .shrlFp rd d4
  | .shrl, .register rs => .shrlReg rd rs
  | .shrl, .imm4 i4 => .shrlImm4 rd i4
  | .shrl, .indirect rx => .shrlInd rd rx
  | .shrl, .byteIndirect rx => .shrlByte rd rx

/-- ST with a store target (R173). -/
def Instr.ofSt (rd : RegNum) (e : MemEa) : Instr :=
  match e with
  | .direct dsp => .stDir rd dsp
  | .indexed dsp rx => .stIdx rd dsp rx
  | .fpRel d4 => .stFp rd d4
  | .indirect rx => .stInd rd rx
  | .byteIndirect rx => .stByte rd rx

/-- The jump with a condition and a target (R242). -/
def Instr.ofJump (cc : Cond) (e : JumpEa) : Instr :=
  match cc, e with
  | .z, .direct dsp => .jzDir dsp
  | .z, .indexed dsp rx => .jzIdx dsp rx
  | .z, .indirect rx => .jzInd rx
  | .c, .direct dsp => .jcDir dsp
  | .c, .indexed dsp rx => .jcIdx dsp rx
  | .c, .indirect rx => .jcInd rx
  | .m, .direct dsp => .jmDir dsp
  | .m, .indexed dsp rx => .jmIdx dsp rx
  | .m, .indirect rx => .jmInd rx
  | .o, .direct dsp => .joDir dsp
  | .o, .indexed dsp rx => .joIdx dsp rx
  | .o, .indirect rx => .joInd rx
  | .gt, .direct dsp => .jgtDir dsp
  | .gt, .indexed dsp rx => .jgtIdx dsp rx
  | .gt, .indirect rx => .jgtInd rx
  | .ge, .direct dsp => .jgeDir dsp
  | .ge, .indexed dsp rx => .jgeIdx dsp rx
  | .ge, .indirect rx => .jgeInd rx
  | .le, .direct dsp => .jleDir dsp
  | .le, .indexed dsp rx => .jleIdx dsp rx
  | .le, .indirect rx => .jleInd rx
  | .lt, .direct dsp => .jltDir dsp
  | .lt, .indexed dsp rx => .jltIdx dsp rx
  | .lt, .indirect rx => .jltInd rx
  | .nz, .direct dsp => .jnzDir dsp
  | .nz, .indexed dsp rx => .jnzIdx dsp rx
  | .nz, .indirect rx => .jnzInd rx
  | .nc, .direct dsp => .jncDir dsp
  | .nc, .indexed dsp rx => .jncIdx dsp rx
  | .nc, .indirect rx => .jncInd rx
  | .nm, .direct dsp => .jnmDir dsp
  | .nm, .indexed dsp rx => .jnmIdx dsp rx
  | .nm, .indirect rx => .jnmInd rx
  | .no, .direct dsp => .jnoDir dsp
  | .no, .indexed dsp rx => .jnoIdx dsp rx
  | .no, .indirect rx => .jnoInd rx
  | .hi, .direct dsp => .jhiDir dsp
  | .hi, .indexed dsp rx => .jhiIdx dsp rx
  | .hi, .indirect rx => .jhiInd rx
  | .ls, .direct dsp => .jlsDir dsp
  | .ls, .indexed dsp rx => .jlsIdx dsp rx
  | .ls, .indirect rx => .jlsInd rx
  | .always, .direct dsp => .jmpDir dsp
  | .always, .indexed dsp rx => .jmpIdx dsp rx
  | .always, .indirect rx => .jmpInd rx

/-- CALL with a target (R258). -/
def Instr.ofCall (e : JumpEa) : Instr :=
  match e with
  | .direct dsp => .callDir dsp
  | .indexed dsp rx => .callIdx dsp rx
  | .indirect rx => .callInd rx

/-- IN with a port (R270). -/
def Instr.ofIn (rd : RegNum) (e : PortEa) : Instr :=
  match e with
  | .direct dsp => .inDir rd dsp
  | .indirect rx => .inInd rd rx
  | .byteIndirect rx => .inByte rd rx

/-- OUT with a port (R271). -/
def Instr.ofOut (rd : RegNum) (e : PortEa) : Instr :=
  match e with
  | .direct dsp => .outDir rd dsp
  | .indirect rx => .outInd rd rx
  | .byteIndirect rx => .outByte rd rx

/-- The instruction that a view shows: the inverse of `Instr.view`. -/
def Instr.ofView : View → Instr
  | .no => .no
  | .ea o rd e => .ofEa o rd e
  | .ldFlag rd => .ldFlag rd
  | .st rd e => .ofSt rd e
  | .jump cc e => .ofJump cc e
  | .call e => .ofCall e
  | .input rd e => .ofIn rd e
  | .output rd e => .ofOut rd e
  | .push rd => .push rd
  | .pop rd => .pop rd
  | .ret => .ret
  | .reti => .reti
  | .ei => .ei
  | .di => .di
  | .svc => .svc
  | .halt => .halt

/-- `OP[7:3]` of an operation with a value operand: its row of the opcode map (R113, R118). -/
def EaOp.row : EaOp → BitVec 5
  | .ld => 0b00001#5
  | .add => 0b00011#5
  | .sub => 0b00100#5
  | .cmp => 0b00101#5
  | .and => 0b00110#5
  | .or => 0b00111#5
  | .xor => 0b01000#5
  | .adds => 0b01001#5
  | .mul => 0b01010#5
  | .div => 0b01011#5
  | .mod => 0b01100#5
  | .mull => 0b01101#5
  | .divl => 0b01110#5
  | .shla => 0b10000#5
  | .shll => 0b10001#5
  | .shra => 0b10010#5
  | .shrl => 0b10011#5

/-- The operation with a value operand whose row of the opcode map is `OP[7:3]`, if that row holds one (R118). -/
def EaOp.ofRow (row : BitVec 5) : Option EaOp :=
  match row.toNat with
  | 1 => some .ld
  | 3 => some .add
  | 4 => some .sub
  | 5 => some .cmp
  | 6 => some .and
  | 7 => some .or
  | 8 => some .xor
  | 9 => some .adds
  | 10 => some .mul
  | 11 => some .div
  | 12 => some .mod
  | 13 => some .mull
  | 14 => some .divl
  | 16 => some .shla
  | 17 => some .shll
  | 18 => some .shra
  | 19 => some .shrl
  | _ => none

/-- The condition code of a jump, the Rd field (R121). -/
def Cond.code : Cond → RegNum
  | .z => 0x0#4
  | .c => 0x1#4
  | .m => 0x2#4
  | .o => 0x3#4
  | .gt => 0x4#4
  | .ge => 0x5#4
  | .le => 0x6#4
  | .lt => 0x7#4
  | .nz => 0x8#4
  | .nc => 0x9#4
  | .nm => 0xA#4
  | .no => 0xB#4
  | .hi => 0xC#4
  | .ls => 0xE#4
  | .always => 0xF#4

/-- The condition with a code; the code Dh has none (R121). -/
def Cond.ofCode (code : RegNum) : Option Cond :=
  match code.toNat with
  | 0 => some .z
  | 1 => some .c
  | 2 => some .m
  | 3 => some .o
  | 4 => some .gt
  | 5 => some .ge
  | 6 => some .le
  | 7 => some .lt
  | 8 => some .nz
  | 9 => some .nc
  | 10 => some .nm
  | 11 => some .no
  | 12 => some .hi
  | 14 => some .ls
  | 15 => some .always
  | _ => none

/-- Why a first word of a defined OP value has no instruction (R120, R121). -/
inductive Reserved where
  /-- A field the format shows as "0h" is not zero (R120, U12). -/
  | mustBeZero
  /-- A jump word whose condition field is Dh (R121, U13). -/
  | jumpConditionD
  deriving DecidableEq, Repr

/-- What the first word says (R115): a blank cell of the opcode map, an encoding the spec gives no meaning, something of one word, or
something that is completed by a second word. -/
inductive First (α : Type) where
  | undefined
  | reserved (why : Reserved)
  | one (a : α)
  | two (f : Word → α)

/-- The same first word, read as something else. -/
def First.map {α β : Type} (g : α → β) : First α → First β
  | .undefined => .undefined
  | .reserved why => .reserved why
  | .one a => .one (g a)
  | .two f => .two (fun w2 => g (f w2))

/-- The field must be zero for `x` to be meant (R120). -/
def First.ifZero {α : Type} (field : BitVec 4) (x : First α) : First α :=
  if field = 0#4 then x else .reserved .mustBeZero

/-- `OP[7:3]`, bits 15..11 of the first word (R111, R113). -/
def rowField (w1 : Word) : BitVec 5 := w1.extractLsb' 11 5

/-- `OP[2:0]`, bits 10..8 of the first word (R111, R113). -/
def modeField (w1 : Word) : BitVec 3 := w1.extractLsb' 8 3

/-- Rd, bits 7..4 of the first word (R111). -/
def rdField (w1 : Word) : RegNum := w1.extractLsb' 4 4

/-- Rx, Rs, D4 or I4, bits 3..0 of the first word (R111). -/
def rxField (w1 : Word) : RegNum := w1.extractLsb' 0 4

/-- The eight modes of a value operand (R114, R150). -/
def decodeEa (m : BitVec 3) (rx : RegNum) : First Ea :=
  match m.toNat with
  | 0 => .ifZero rx (.two .direct)
  | 1 => .two (fun dsp => .indexed dsp rx)
  | 2 => .ifZero rx (.two .immediate)
  | 3 => .one (.fpRel rx)
  | 4 => .one (.register rx)
  | 5 => .one (.imm4 rx)
  | 6 => .one (.indirect rx)
  | _ => .one (.byteIndirect rx)

/-- The five modes of ST; columns 2, 4 and 5 of its row hold no ST (R118, R119). -/
def decodeMemEa (m : BitVec 3) (rx : RegNum) : First MemEa :=
  match m.toNat with
  | 0 => .ifZero rx (.two .direct)
  | 1 => .two (fun dsp => .indexed dsp rx)
  | 3 => .one (.fpRel rx)
  | 6 => .one (.indirect rx)
  | 7 => .one (.byteIndirect rx)
  | _ => .undefined

/-- The three modes of the jumps and CALL (R118, R122). -/
def decodeJumpEa (m : BitVec 3) (rx : RegNum) : First JumpEa :=
  match m.toNat with
  | 0 => .ifZero rx (.two .direct)
  | 1 => .two (fun dsp => .indexed dsp rx)
  | 6 => .one (.indirect rx)
  | _ => .undefined

/-- The three modes of IN and OUT (R118, R122). -/
def decodePortEa (m : BitVec 3) (rx : RegNum) : First PortEa :=
  match m.toNat with
  | 0 => .ifZero rx (.two .direct)
  | 6 => .one (.indirect rx)
  | 7 => .one (.byteIndirect rx)
  | _ => .undefined

/-- The row A0h: the Rd field is the condition (R121, R242). A blank column is undefined whatever the condition field holds (R119). -/
def decodeJump (m : BitVec 3) (rd rx : RegNum) : First View :=
  match decodeJumpEa m rx, Cond.ofCode rd with
  | .undefined, _ => .undefined
  | _, none => .reserved .jumpConditionD
  | x, some cc => x.map (.jump cc)

/-- The row A8h: the Rd field must be zero (R120, R258). A blank column is undefined whatever that field holds (R119). -/
def decodeCall (m : BitVec 3) (rd rx : RegNum) : First View :=
  match decodeJumpEa m rx with
  | .undefined => .undefined
  | x => .ifZero rd (x.map .call)

/-- The row and the column of the opcode map of R118 that the first word names, with the fields of R111. -/
def decodeView (w1 : Word) : First View :=
  let m := modeField w1
  let rd := rdField w1
  let rx := rxField w1
  match EaOp.ofRow (rowField w1) with
  | some o => (decodeEa m rx).map (.ea o rd)
  | none =>
    match (rowField w1).toNat, m.toNat with
    | 0, 0 => .ifZero rd (.ifZero rx (.one .no))
    | 2, 4 => .ifZero rx (.one (.ldFlag rd))
    | 2, _ => (decodeMemEa m rx).map (.st rd)
    | 20, _ => decodeJump m rd rx
    | 21, _ => decodeCall m rd rx
    | 22, _ => (decodePortEa m rx).map (.input rd)
    | 23, _ => (decodePortEa m rx).map (.output rd)
    | 24, 0 => .ifZero rx (.one (.push rd))
    | 24, 4 => .ifZero rx (.one (.pop rd))
    | 26, 0 => .ifZero rd (.ifZero rx (.one .ret))
    | 26, 4 => .ifZero rd (.ifZero rx (.one .reti))
    | 28, 0 => .ifZero rd (.ifZero rx (.one .ei))
    | 28, 4 => .ifZero rd (.ifZero rx (.one .di))
    | 30, 0 => .ifZero rd (.ifZero rx (.one .svc))
    | 31, 7 => .ifZero rd (.ifZero rx (.one .halt))
    | _, _ => .undefined

/-- What the first word says of the instruction (R115, R127). -/
def decodeFirst (w1 : Word) : First Instr := (decodeView w1).map Instr.ofView

/-- What a run of bytes says. -/
inductive Decoded where
  /-- The instruction and the bytes after it. -/
  | instr (i : Instr) (rest : List Byte)
  /-- A blank cell of the opcode map: UndefinedInstruction after one word (R119, R326). -/
  | undefined (rest : List Byte)
  /-- An encoding the spec gives no meaning (R120, R121). -/
  | reserved (why : Reserved)
  /-- The bytes end inside the instruction. -/
  | truncated
  deriving DecidableEq, Repr

/-- Decoding of bytes in memory order: the first word at the lower addresses, each word big-endian (R63, R70, R115). -/
def decode : List Byte → Decoded
  | b0 :: b1 :: rest =>
    match decodeFirst (wordOfBytes b0 b1) with
    | .undefined => .undefined rest
    | .reserved why => .reserved why
    | .one i => .instr i rest
    | .two f =>
      match rest with
      | b2 :: b3 :: rest' => .instr (f (wordOfBytes b2 b3)) rest'
      | _ => .truncated
  | _ => .truncated

/-! The encoder. -/

/-- A first word from its fields (R111, R113). -/
def firstWord (row : BitVec 5) (m : BitVec 3) (rd rx : BitVec 4) : Word := row ++ m ++ rd ++ rx

/-- A value operand's mode, its Rx field and its second word (R114). -/
def Ea.fields : Ea → BitVec 3 × RegNum × List Word
  | .direct dsp => (0, 0, [dsp])
  | .indexed dsp rx => (1, rx, [dsp])
  | .immediate imm => (2, 0, [imm])
  | .fpRel d4 => (3, d4, [])
  | .register rs => (4, rs, [])
  | .imm4 i4 => (5, i4, [])
  | .indirect rx => (6, rx, [])
  | .byteIndirect rx => (7, rx, [])

/-- A store target's mode, its Rx field and its second word (R114). -/
def MemEa.fields : MemEa → BitVec 3 × RegNum × List Word
  | .direct dsp => (0, 0, [dsp])
  | .indexed dsp rx => (1, rx, [dsp])
  | .fpRel d4 => (3, d4, [])
  | .indirect rx => (6, rx, [])
  | .byteIndirect rx => (7, rx, [])

/-- A jump target's mode, its Rx field and its second word (R114). -/
def JumpEa.fields : JumpEa → BitVec 3 × RegNum × List Word
  | .direct dsp => (0, 0, [dsp])
  | .indexed dsp rx => (1, rx, [dsp])
  | .indirect rx => (6, rx, [])

/-- A port operand's mode, its Rx field and its second word (R114). -/
def PortEa.fields : PortEa → BitVec 3 × RegNum × List Word
  | .direct dsp => (0, 0, [dsp])
  | .indirect rx => (6, rx, [])
  | .byteIndirect rx => (7, rx, [])

/-- The words of a format with an operand (R114). -/
def encodeWith (row : BitVec 5) (rd : RegNum) (fields : BitVec 3 × RegNum × List Word) : List Word :=
  firstWord row fields.1 rd fields.2.1 :: fields.2.2

/-- The words of an operation with its operand form (R114, R118). -/
def View.encode : View → List Word
  | .no => [firstWord 0 0 0 0]
  | .ea o rd e => encodeWith o.row rd e.fields
  | .ldFlag rd => [firstWord 2 4 rd 0]
  | .st rd e => encodeWith 2 rd e.fields
  | .jump cc e => encodeWith 20 cc.code e.fields
  | .call e => encodeWith 21 0 e.fields
  | .input rd e => encodeWith 22 rd e.fields
  | .output rd e => encodeWith 23 rd e.fields
  | .push rd => [firstWord 24 0 rd 0]
  | .pop rd => [firstWord 24 4 rd 0]
  | .ret => [firstWord 26 0 0 0]
  | .reti => [firstWord 26 4 0 0]
  | .ei => [firstWord 28 0 0 0]
  | .di => [firstWord 28 4 0 0]
  | .svc => [firstWord 30 0 0 0]
  | .halt => [firstWord 31 7 0 0]

/-- The words of an instruction, the first word first (R110 to R118). -/
def encode (i : Instr) : List Word := i.view.encode

/-- Words as the bytes they occupy in memory, lowest address first (R63, R70). -/
def bytesOfWords : List Word → List Byte
  | [] => []
  | w :: ws => highByte w :: lowByte w :: bytesOfWords ws

/-- The first two words of an instruction whose bits are `w`, numbered as the opcode table numbers them: bit 0 is the least
significant bit of the first word, the second word is bits 31 to 16, and every bit above `nbits` is 0. -/
def tableWords (nbits w : Nat) : List Word :=
  let bits := w % 2 ^ nbits
  [BitVec.ofNat 16 bits, BitVec.ofNat 16 (bits / 65536)]

/-- The instruction the decoder reads from an instruction whose bits are `w`, laid out in memory as the hardware stores it. -/
def decodeTableWord (nbits w : Nat) : Option Instr :=
  match decode (bytesOfWords (tableWords nbits w)) with
  | .instr i _ => some i
  | _ => none

end Sys2Proof
end

