-- ==== Sys2Proof/Machine/Ops.lean ====
section
/-! DEFINITION. The named operations over memory and registers, the stack, taking an exception and returning from one
(10_state.md, 20_memory.md, 47_stack_return.md, 60_exceptions.md). -/

namespace Sys2Proof.Machine

/-! ## FLAG -/

/-- A bit of FLAG at its place. -/
def flagBit (b : Bool) (weight : Word) : Word := if b then weight else 0

/-- FLAG as a 16-bit value, `00000000EP00VCSZ` (R28, R29). -/
def Flag.toWord (f : Flag) : Word :=
  flagBit f.e 0x0080 ||| flagBit f.p 0x0040 ||| flagBit f.v 0x0008 ||| flagBit f.c 0x0004 ||| flagBit f.s 0x0002 |||
    flagBit f.z 0x0001

/-- The FLAG a 16-bit value is: its bits 15..8 and 5..4 are discarded (R29, R284, D39, log 31). -/
def Flag.ofWord (w : Word) : Flag :=
  { e := w.getLsbD 7, p := w.getLsbD 6, v := w.getLsbD 3, c := w.getLsbD 2, s := w.getLsbD 1, z := w.getLsbD 0 }

/-- V, C, S and Z written, E and P kept (R31, R33). -/
def State.withVcsz (st : State) (r : Vcsz) : State :=
  st.withFlag { st.flag with v := r.v, c := r.c, s := r.s, z := r.z }

/-! ## Registers -/

/-- The register a register number selects, with P at the moment of the access (R22, R23). -/
def resolve (p : Bool) (r : RegNum) : Reg :=
  if h : r.toNat < 13 then .g ⟨r.toNat, h⟩
  else if r = 13#4 then (if p then .ssp else .usp)
  else if r = 14#4 then .usp
  else .pc

/-- The content of a register. -/
def State.get (st : State) : Reg → Word
  | .g n => st.g[n.val]
  | .ssp => st.ssp
  | .usp => st.usp
  | .pc => st.pc

/-- A register written. -/
def State.set (st : State) (x : Reg) (w : Word) : State :=
  match x with
  | .g n => st.withG (st.g.set n.val w n.isLt)
  | .ssp => st.withSsp w
  | .usp => st.withUsp w
  | .pc => st.withPc w

/-- The register that a number names in this state. -/
def State.reg (st : State) (r : RegNum) : Reg := resolve st.flag.p r

/-- `x[r]`: a read of number Fh is PC, the address of the next instruction while an instruction runs (R9, R23, R26; R27 with
`PC_AS_OPERAND` = `next_instruction`, DESIGN CHOICE, log 9). -/
def State.x (st : State) (r : RegNum) : Word := st.get (st.reg r)

/-- `x[r] <- w`: a write of number Fh is a jump (R9, R23; R27 with `PC_AS_OPERAND` = `next_instruction`, DESIGN CHOICE, log 9). -/
def State.setX (st : State) (r : RegNum) (w : Word) : State := st.set (st.reg r) w

/-- The number of SP, the stack pointer in use (R9, R22). -/
def spNum : RegNum := 13#4

/-- The number of FP (R9, R21). -/
def fpNum : RegNum := 12#4

/-! ## Results of accesses -/

/-- The value of an access, read as something else. -/
def Access.map {α β : Type} (f : α → β) : Access α → Access β
  | .ok a => .ok (f a)
  | .raised e => .raised e
  | .fault r => .fault r
  | .refused r => .refused r

/-- One access after another. -/
def Access.bind {α β : Type} (x : Access α) (f : α → Access β) : Access β :=
  match x with
  | .ok a => f a
  | .raised e => .raised e
  | .fault r => .fault r
  | .refused r => .refused r

/-! ## The memory as data -/

/-- The byte at an address, if something has written it. -/
def Memory.read (m : Memory) (a : Nat) : Option Byte :=
  match m with
  | [] => none
  | (k, b) :: rest => if k = a then some b else Memory.read rest a

/-- A byte written, in canonical form. -/
def Memory.write (m : Memory) (a : Nat) (b : Byte) : Memory :=
  match m with
  | [] => [(a, b)]
  | (k, c) :: rest =>
    if a < k then (a, b) :: (k, c) :: rest
    else if a = k then (a, b) :: rest
    else (k, c) :: Memory.write rest a b

/-- A word written, its high byte at the even address and its low byte after it (R63, R67). -/
def Memory.writeWord (m : Memory) (a : Word) (w : Word) : Memory :=
  (m.write a.toNat (highByte w)).write (a + 1#16).toNat (lowByte w)

/-- A word read from the byte at the even address and the byte after it, if both hold a value (R63, R66). -/
def Memory.readWord (m : Memory) (a : Word) : Option Word :=
  match m.read a.toNat, m.read (a + 1#16).toNat with
  | some hi, some lo => some (wordOfBytes hi lo)
  | _, _ => none

/-- A byte of memory as the model shows it: `none` where nothing has written it (log 3). -/
def State.byteAt (st : State) (a : Nat) : Option Byte := st.mem.read a

/-! ## The memory map and the protection check -/

/-- The four regions of the memory map (R74). -/
inductive Region where
  | ram
  | reserved
  | rom
  | vectors
  deriving DecidableEq, Repr

/-- The region of an address (R74): RAM 0000h to DFFFh, reserved and VRAM E000h to EFFFh, ROM F000h to FFDFh, vectors FFE0h to FFFFh. -/
def regionOf (a : Word) : Region :=
  if a.toNat < 0xE000 then .ram
  else if a.toNat < 0xF000 then .reserved
  else if a.toNat < 0xFFE0 then .rom
  else .vectors

/-- `MEM_PROTECT(FLAG.P, addr, kind)` (R72, R345, D33): nothing is rejected while P = 1; while P = 0 the predicate is open (log 19). -/
def State.rejects (st : State) (kind : AccessKind) (a : Word) : Bool :=
  if st.flag.p then false else Config.userProtect st.lowerLimit st.upperLimit a kind

/-- A byte or a word that an access found in memory, if there is one (R37, U22, log 3). -/
def foundValue {α : Type} : Option α → Access α
  | some a => .ok a
  | none => .fault .unwrittenByte

/-- The checks of a 16-bit access in their order: odd address, then protection (R66, R67, R68, R72, R334), then the region (R75). -/
def State.checkWord (st : State) (kind : AccessKind) (a : Word) : Access Unit :=
  if a.getLsbD 0 then .raised .addressError
  else if st.rejects kind a then .raised .memoryViolation
  else match regionOf a, kind with
    | .reserved, _ => .refused .reservedRegion
    | .rom, .write => .refused .romWrite
    | _, _ => .ok ()

/-- The checks of an 8-bit access: any address is legal (R69), then protection (R72), then the region (R75). -/
def State.checkByte (st : State) (kind : AccessKind) (a : Word) : Access Unit :=
  if st.rejects kind a then .raised .memoryViolation
  else match regionOf a, kind with
    | .reserved, _ => .refused .reservedRegion
    | .rom, .write => .refused .romWrite
    | _, _ => .ok ()

/-- `MemRead(addr, 2)`, and `Fetch(addr)` with the kind `fetch` (R66, R70). -/
def State.readWord (st : State) (kind : AccessKind) (a : Word) : Access Word :=
  (st.checkWord kind a).bind fun _ => foundValue (st.mem.readWord a)

/-- `MemRead(addr, 1)` (R69). -/
def State.readByte (st : State) (a : Word) : Access Byte :=
  (st.checkByte .read a).bind fun _ => foundValue (st.mem.read a.toNat)

/-- `MemWrite(addr, 2, v)` (R67). -/
def State.writeWord (st : State) (a : Word) (w : Word) : Access State :=
  (st.checkWord .write a).map fun _ => st.withMem (st.mem.writeWord a w)

/-- `MemWrite(addr, 1, b)` (R69). -/
def State.writeByte (st : State) (a : Word) (b : Byte) : Access State :=
  (st.checkByte .write a).map fun _ => st.withMem (st.mem.write a.toNat b)

/-! ## The stack -/

/-- A push: `SP <- SP -16 2; MemWrite(SP, 2, v)`, with no effect when the write raises an exception (R280, D3, D34; log 7). -/
def State.push (st : State) (w : Word) : Access State :=
  (st.writeWord (st.x spNum - 2#16) w).map fun st' => st'.setX spNum (st.x spNum - 2#16)

/-- A pop: `v <- MemRead(SP, 2); SP <- SP +16 2` (R280, D3; log 7). -/
def State.pop (st : State) : Access (Word × State) :=
  (st.readWord .read (st.x spNum)).map fun w => (w, st.setX spNum (st.x spNum + 2#16))

/-! ## Taking an exception, returning from one -/

/-- The number of an exception, its place in the vector table (R76, R321). -/
def Exc.number : Exc → Nat
  | .addressError => 10
  | .memoryViolation => 11
  | .zeroDivide => 12
  | .privilegeViolation => 13
  | .undefinedInstruction => 14
  | .svc => 15

/-- The number of a cause (R76, R320). -/
def Cause.number : Cause → Nat
  | .interrupt n => n.val
  | .exception e => e.number

/-- The address of a cause's vector, FFE0h + 2n (R76, R320). -/
def Cause.vector (c : Cause) : Word := 0xFFE0#16 + BitVec.ofNat 16 (2 * c.number)

/-- `if n <= 9 then pending[n] <- 0` (R335, D41). -/
def State.acknowledge (st : State) : Cause → State
  | .interrupt n => st.withPending (st.pending &&& ~~~ (1#10 <<< n.val))
  | .exception _ => st

/-- The mode trap entry runs in: P <- 1, E <- 0, the result flags kept (R335). -/
def State.enterSystem (st : State) : State := st.withFlag { st.flag with p := true, e := false }

/-- An access of trap entry: an exception in it has no meaning (R339, U28, log 26). -/
def Access.inTrap {α : Type} (x : Access α) (k : α → Result) : Result :=
  match x with
  | .ok a => k a
  | .raised _ => .refused .trapEntryFault
  | .fault r => .fault r
  | .refused r => .refused r

/-- Trap entry for a cause with a return address (R335, D21, log 26): FLAG saved, P <- 1, E <- 0, the return address and then the old
FLAG pushed on SSP, the request acknowledged, PC from the vector (R336). -/
def trapEntry (c : Cause) (retpc : Word) (st : State) : Result :=
  (st.enterSystem.push retpc).inTrap fun st1 =>
  (st1.push st.flag.toWord).inTrap fun st2 =>
  ((st2.acknowledge c).readWord .read c.vector).inTrap fun handler =>
  .next ((st2.acknowledge c).withPc handler)

/-- `raise <Name>(PC)` while an instruction runs: the instruction has no effect, and the return address is the address of the next
instruction (R11, R321, D23, D34; log 18). -/
def raise (e : Exc) (st : State) : Result := trapEntry (.exception e) st.pc st

/-- Trap return, the counterpart of trap entry (R284, R338): FLAG and then PC popped, both through the stack pointer that P selected
before (D26). -/
def State.trapReturn (st : State) : Access State :=
  st.pop.bind fun (f, st1) =>
  st1.pop.map fun (t, st2) =>
  (st2.withFlag (Flag.ofWord f)).withPc t

/-- What an instruction does with an access: go on with the value, take the exception it raised (the instruction then has no effect,
D34), or stop. -/
def Access.run {α : Type} (x : Access α) (st : State) (k : α → Result) : Result :=
  match x with
  | .ok a => k a
  | .raised e => raise e st
  | .fault r => .fault r
  | .refused r => .refused r

/-! ## Privilege -/

/-- The instructions about which the privileged set is asked (R341). RETI is handled separately (R284). -/
inductive PrivOp where
  | input
  | output
  | ei
  | di
  | halt
  deriving DecidableEq, Repr

/-- `PRIV_SET` = {IN, OUT, EI, DI, HALT} (R341, D20, log 27). -/
def privSet : PrivOp → Bool
  | .input => true
  | .output => true
  | .ei => true
  | .di => true
  | .halt => true

/-- The privilege check: an instruction of the set in user mode has no effect and raises PrivilegeViolation (R325, R341). -/
def gated (o : PrivOp) (st : State) (k : Result) : Result :=
  if privSet o && !st.flag.p then raise .privilegeViolation st else k

/-! ## Interrupt acceptance -/

/-- The environment's requests of one boundary added to `pending` (R332, R350, log 24). -/
def State.receive (st : State) : State :=
  match st.requests with
  | [] => st
  | r :: rest => (st.withPending (st.pending ||| r)).withRequests rest

/-- The interrupt sources that are pending (R331). -/
def State.pendingSources (st : State) : List (Fin 10) := (List.finRange 10).filter fun n => st.pending.getLsbD n.val

/-- The interrupt taken at a boundary: none while E = 0; a pending source; when several are pending, any one of them, by a free choice
(R331, R333, D24, D25; logs 24, 25). -/
def State.acceptInterrupt (st : State) : Option (Fin 10 × State) :=
  if st.flag.e then
    match st.pendingSources with
    | [] => none
    | [n] => some (n, st)
    | n :: m :: rest =>
      some ((n :: m :: rest).getD (Config.freeChoice st.free % (n :: m :: rest).length) n, st.withFree (st.free + 1))
  else none

end Sys2Proof.Machine
end

