-- ==== Sys2Proof/Machine/Operands.lean ====
section
/-! DEFINITION. The operand functions of 40_operands.md: one value, one store target, one jump target, one port per mode. -/

namespace Sys2Proof.Machine

/-- The FP-relative address: twice the sign-extended D4, plus G12 (R116, R154). -/
def State.fpAddress (st : State) (d4 : BitVec 4) : Word := BitVec.ofInt 16 (2 * d4.toInt) + st.x fpNum

/-- `Operand(m)`, the value operand of modes 0 to 7 (R152 to R158). A byte is zero-extended (R158, D17, log 17). -/
def operand (st : State) : Ea → Access Word
  | .direct dsp => st.readWord .read dsp
  | .indexed dsp rx => st.readWord .read (dsp + st.x rx)
  | .immediate imm => .ok imm
  | .fpRel d4 => st.readWord .read (st.fpAddress d4)
  | .register rs => .ok (st.x rs)
  | .imm4 i4 => .ok (i4.signExtend 16)
  | .indirect rx => st.readWord .read (st.x rx)
  | .byteIndirect rx => (st.readByte (st.x rx)).map (·.setWidth 16)

/-- `StoreTarget(m)`: the address and the width in bytes (R159). -/
def storeTarget (st : State) : MemEa → Word × Nat
  | .direct dsp => (dsp, 2)
  | .indexed dsp rx => (dsp + st.x rx, 2)
  | .fpRel d4 => (st.fpAddress d4, 2)
  | .indirect rx => (st.x rx, 2)
  | .byteIndirect rx => (st.x rx, 1)

/-- `JumpTarget(m)`: the effective address itself, no memory read (R160). -/
def jumpTarget (st : State) : JumpEa → Word
  | .direct dsp => dsp
  | .indexed dsp rx => dsp + st.x rx
  | .indirect rx => st.x rx

/-- `IOPort(m)`: the computed 16-bit address and the width in bytes (R161). -/
def ioPort (st : State) : PortEa → Word × Nat
  | .direct dsp => (dsp, 2)
  | .indirect rx => (st.x rx, 2)
  | .byteIndirect rx => (st.x rx, 1)

end Sys2Proof.Machine
end

