-- ==== Sys2Proof/Machine/Arith.lean ====
section
/-! DEFINITION. ADD, SUB, CMP, AND, OR, XOR and ADDS (42_arithmetic_logic.md, R180 to R187). -/

namespace Sys2Proof.Machine

/-- An operation that writes a result of Rd and the operand to Rd, and the four result flags. Both are read before Rd is written (R151). -/
def doAlu (result : Word → Word → Word) (flags : Word → Word → Vcsz) (rd : RegNum) (e : Ea) (st : State) : Result :=
  (operand st e).run st fun b => .next ((st.setX rd (result (st.x rd) b)).withVcsz (flags (st.x rd) b))

/-- ADD (R181). -/
def doAdd (rd : RegNum) (e : Ea) (st : State) : Result := doAlu (fun a b => a + b) flagsAdd rd e st

/-- SUB (R182). -/
def doSub (rd : RegNum) (e : Ea) (st : State) : Result := doAlu (fun a b => a - b) flagsSub rd e st

/-- CMP: the flags of the difference, Rd not written (R183). -/
def doCmp (rd : RegNum) (e : Ea) (st : State) : Result :=
  (operand st e).run st fun b => .next (st.withVcsz (flagsSub (st.x rd) b))

/-- AND (R184). -/
def doAnd (rd : RegNum) (e : Ea) (st : State) : Result := doAlu (fun a b => a &&& b) (fun a b => flagsLogic (a &&& b)) rd e st

/-- OR (R185). -/
def doOr (rd : RegNum) (e : Ea) (st : State) : Result := doAlu (fun a b => a ||| b) (fun a b => flagsLogic (a ||| b)) rd e st

/-- XOR (R186). -/
def doXor (rd : RegNum) (e : Ea) (st : State) : Result := doAlu (fun a b => a ^^^ b) (fun a b => flagsLogic (a ^^^ b)) rd e st

/-- The operand of ADDS doubled, its bit 15 lost (R187). -/
def doubled (b : Word) : Word := b + b

/-- ADDS: the flags are those of the addition of the doubled operand (R187, D9, log 10). -/
def doAdds (rd : RegNum) (e : Ea) (st : State) : Result :=
  doAlu (fun a b => a + doubled b) (fun a b => flagsAdd a (doubled b)) rd e st

/-- ADD, Direct (R181). -/
def execAddDir (rd : RegNum) (dsp : Word) (st : State) : Result := doAdd rd (.direct dsp) st

/-- ADD, Indexed (R181). -/
def execAddIdx (rd : RegNum) (dsp : Word) (rx : RegNum) (st : State) : Result := doAdd rd (.indexed dsp rx) st

/-- ADD, Immediate (R181). -/
def execAddImm (rd : RegNum) (imm : Word) (st : State) : Result := doAdd rd (.immediate imm) st

/-- ADD, FP Relative (R181). -/
def execAddFp (rd : RegNum) (d4 : BitVec 4) (st : State) : Result := doAdd rd (.fpRel d4) st

/-- ADD, Register (R181). -/
def execAddReg (rd : RegNum) (rs : RegNum) (st : State) : Result := doAdd rd (.register rs) st

/-- ADD, 4-bit immediate (R181). -/
def execAddImm4 (rd : RegNum) (i4 : BitVec 4) (st : State) : Result := doAdd rd (.imm4 i4) st

/-- ADD, Register Indirect (R181). -/
def execAddInd (rd : RegNum) (rx : RegNum) (st : State) : Result := doAdd rd (.indirect rx) st

/-- ADD, Byte Register Indirect (R181). -/
def execAddByte (rd : RegNum) (rx : RegNum) (st : State) : Result := doAdd rd (.byteIndirect rx) st

/-- SUB, Direct (R182). -/
def execSubDir (rd : RegNum) (dsp : Word) (st : State) : Result := doSub rd (.direct dsp) st

/-- SUB, Indexed (R182). -/
def execSubIdx (rd : RegNum) (dsp : Word) (rx : RegNum) (st : State) : Result := doSub rd (.indexed dsp rx) st

/-- SUB, Immediate (R182). -/
def execSubImm (rd : RegNum) (imm : Word) (st : State) : Result := doSub rd (.immediate imm) st

/-- SUB, FP Relative (R182). -/
def execSubFp (rd : RegNum) (d4 : BitVec 4) (st : State) : Result := doSub rd (.fpRel d4) st

/-- SUB, Register (R182). -/
def execSubReg (rd : RegNum) (rs : RegNum) (st : State) : Result := doSub rd (.register rs) st

/-- SUB, 4-bit immediate (R182). -/
def execSubImm4 (rd : RegNum) (i4 : BitVec 4) (st : State) : Result := doSub rd (.imm4 i4) st

/-- SUB, Register Indirect (R182). -/
def execSubInd (rd : RegNum) (rx : RegNum) (st : State) : Result := doSub rd (.indirect rx) st

/-- SUB, Byte Register Indirect (R182). -/
def execSubByte (rd : RegNum) (rx : RegNum) (st : State) : Result := doSub rd (.byteIndirect rx) st

/-- CMP, Direct (R183). -/
def execCmpDir (rd : RegNum) (dsp : Word) (st : State) : Result := doCmp rd (.direct dsp) st

/-- CMP, Indexed (R183). -/
def execCmpIdx (rd : RegNum) (dsp : Word) (rx : RegNum) (st : State) : Result := doCmp rd (.indexed dsp rx) st

/-- CMP, Immediate (R183). -/
def execCmpImm (rd : RegNum) (imm : Word) (st : State) : Result := doCmp rd (.immediate imm) st

/-- CMP, FP Relative (R183). -/
def execCmpFp (rd : RegNum) (d4 : BitVec 4) (st : State) : Result := doCmp rd (.fpRel d4) st

/-- CMP, Register (R183). -/
def execCmpReg (rd : RegNum) (rs : RegNum) (st : State) : Result := doCmp rd (.register rs) st

/-- CMP, 4-bit immediate (R183). -/
def execCmpImm4 (rd : RegNum) (i4 : BitVec 4) (st : State) : Result := doCmp rd (.imm4 i4) st

/-- CMP, Register Indirect (R183). -/
def execCmpInd (rd : RegNum) (rx : RegNum) (st : State) : Result := doCmp rd (.indirect rx) st

/-- CMP, Byte Register Indirect (R183). -/
def execCmpByte (rd : RegNum) (rx : RegNum) (st : State) : Result := doCmp rd (.byteIndirect rx) st

/-- AND, Direct (R184). -/
def execAndDir (rd : RegNum) (dsp : Word) (st : State) : Result := doAnd rd (.direct dsp) st

/-- AND, Indexed (R184). -/
def execAndIdx (rd : RegNum) (dsp : Word) (rx : RegNum) (st : State) : Result := doAnd rd (.indexed dsp rx) st

/-- AND, Immediate (R184). -/
def execAndImm (rd : RegNum) (imm : Word) (st : State) : Result := doAnd rd (.immediate imm) st

/-- AND, FP Relative (R184). -/
def execAndFp (rd : RegNum) (d4 : BitVec 4) (st : State) : Result := doAnd rd (.fpRel d4) st

/-- AND, Register (R184). -/
def execAndReg (rd : RegNum) (rs : RegNum) (st : State) : Result := doAnd rd (.register rs) st

/-- AND, 4-bit immediate (R184). -/
def execAndImm4 (rd : RegNum) (i4 : BitVec 4) (st : State) : Result := doAnd rd (.imm4 i4) st

/-- AND, Register Indirect (R184). -/
def execAndInd (rd : RegNum) (rx : RegNum) (st : State) : Result := doAnd rd (.indirect rx) st

/-- AND, Byte Register Indirect (R184). -/
def execAndByte (rd : RegNum) (rx : RegNum) (st : State) : Result := doAnd rd (.byteIndirect rx) st

/-- OR, Direct (R185). -/
def execOrDir (rd : RegNum) (dsp : Word) (st : State) : Result := doOr rd (.direct dsp) st

/-- OR, Indexed (R185). -/
def execOrIdx (rd : RegNum) (dsp : Word) (rx : RegNum) (st : State) : Result := doOr rd (.indexed dsp rx) st

/-- OR, Immediate (R185). -/
def execOrImm (rd : RegNum) (imm : Word) (st : State) : Result := doOr rd (.immediate imm) st

/-- OR, FP Relative (R185). -/
def execOrFp (rd : RegNum) (d4 : BitVec 4) (st : State) : Result := doOr rd (.fpRel d4) st

/-- OR, Register (R185). -/
def execOrReg (rd : RegNum) (rs : RegNum) (st : State) : Result := doOr rd (.register rs) st

/-- OR, 4-bit immediate (R185). -/
def execOrImm4 (rd : RegNum) (i4 : BitVec 4) (st : State) : Result := doOr rd (.imm4 i4) st

/-- OR, Register Indirect (R185). -/
def execOrInd (rd : RegNum) (rx : RegNum) (st : State) : Result := doOr rd (.indirect rx) st

/-- OR, Byte Register Indirect (R185). -/
def execOrByte (rd : RegNum) (rx : RegNum) (st : State) : Result := doOr rd (.byteIndirect rx) st

/-- XOR, Direct (R186). -/
def execXorDir (rd : RegNum) (dsp : Word) (st : State) : Result := doXor rd (.direct dsp) st

/-- XOR, Indexed (R186). -/
def execXorIdx (rd : RegNum) (dsp : Word) (rx : RegNum) (st : State) : Result := doXor rd (.indexed dsp rx) st

/-- XOR, Immediate (R186). -/
def execXorImm (rd : RegNum) (imm : Word) (st : State) : Result := doXor rd (.immediate imm) st

/-- XOR, FP Relative (R186). -/
def execXorFp (rd : RegNum) (d4 : BitVec 4) (st : State) : Result := doXor rd (.fpRel d4) st

/-- XOR, Register (R186). -/
def execXorReg (rd : RegNum) (rs : RegNum) (st : State) : Result := doXor rd (.register rs) st

/-- XOR, 4-bit immediate (R186). -/
def execXorImm4 (rd : RegNum) (i4 : BitVec 4) (st : State) : Result := doXor rd (.imm4 i4) st

/-- XOR, Register Indirect (R186). -/
def execXorInd (rd : RegNum) (rx : RegNum) (st : State) : Result := doXor rd (.indirect rx) st

/-- XOR, Byte Register Indirect (R186). -/
def execXorByte (rd : RegNum) (rx : RegNum) (st : State) : Result := doXor rd (.byteIndirect rx) st

/-- ADDS, Direct (R187). -/
def execAddsDir (rd : RegNum) (dsp : Word) (st : State) : Result := doAdds rd (.direct dsp) st

/-- ADDS, Indexed (R187). -/
def execAddsIdx (rd : RegNum) (dsp : Word) (rx : RegNum) (st : State) : Result := doAdds rd (.indexed dsp rx) st

/-- ADDS, Immediate (R187). -/
def execAddsImm (rd : RegNum) (imm : Word) (st : State) : Result := doAdds rd (.immediate imm) st

/-- ADDS, FP Relative (R187). -/
def execAddsFp (rd : RegNum) (d4 : BitVec 4) (st : State) : Result := doAdds rd (.fpRel d4) st

/-- ADDS, Register (R187). -/
def execAddsReg (rd : RegNum) (rs : RegNum) (st : State) : Result := doAdds rd (.register rs) st

/-- ADDS, 4-bit immediate (R187). -/
def execAddsImm4 (rd : RegNum) (i4 : BitVec 4) (st : State) : Result := doAdds rd (.imm4 i4) st

/-- ADDS, Register Indirect (R187). -/
def execAddsInd (rd : RegNum) (rx : RegNum) (st : State) : Result := doAdds rd (.indirect rx) st

/-- ADDS, Byte Register Indirect (R187). -/
def execAddsByte (rd : RegNum) (rx : RegNum) (st : State) : Result := doAdds rd (.byteIndirect rx) st

end Sys2Proof.Machine
end

