-- ==== Sys2Proof/Machine/Ports.lean ====
section
/-! DEFINITION. The I/O space: R71, R78, R87, R345, R350. The environment answers reads and receives writes; the two limit registers are
the only ports whose content the spec gives a place. -/

namespace Sys2Proof.Machine

/-- The port an I/O address selects: its low 8 bits (R71, D19, log 21). -/
def portOf (a : Word) : Byte := a.extractLsb' 0 8

/-- The 16-bit ports that the I/O map draws with the constant 00H in the even byte (R78). The micro-SD address rows 12h, 14h and 16h are
left out: a model must not rely on their width (R79). -/
def upperByteZero (port : Byte) : Bool :=
  match port.toNat with
  | 0x08 => true
  | 0x0A => true
  | 0x0C => true
  | 0x0E => true
  | 0x10 => true
  | 0x18 => true
  | 0x1A => true
  | 0x1C => true
  | 0x1E => true
  | 0x20 => true
  | 0x22 => true
  | 0x24 => true
  | 0x26 => true
  | 0xFC => true
  | 0xFE => true
  | _ => false

/-- The next answer of the environment: the head of `ioAnswers`, or a free value when none is given (R350, U23, log 22). -/
def State.answer (st : State) : Word × State :=
  match st.ioAnswers with
  | a :: rest => (a, st.withIoAnswers rest)
  | [] => (Config.freeWord st.free, st.withFree (st.free + 1))

/-- What a 16-bit read of a port delivers of an answer: 00h in bits 15..8 where the map draws it (R78, R270, log 22). -/
def shapeWord (port : Byte) (a : Word) : Word := if upperByteZero port then (lowByte a).setWidth 16 else a

/-- What an 8-bit read of a port delivers of an answer: 00h at the even byte of a port the map draws so (R63, R78, log 22). -/
def shapeByte (port : Byte) (a : Word) : Word := if upperByteZero port then 0#16 else (lowByte a).setWidth 16

/-- An I/O access recorded, in program order (R81, R87). -/
def State.record (st : State) (ev : IoEvent) : State := st.withIoTrace (st.ioTrace ++ [ev])

/-- `IORead(port, n)` (R71, R350): a 16-bit read of an odd port has no meaning (D19, U16, log 21). The value is 16 bits, zero-extended for
n = 1 (R161, R270). -/
def State.ioRead (st : State) (port : Byte) (width : Nat) : Access (Word × State) :=
  if width = 2 then
    if port.getLsbD 0 then .refused .oddIoPort
    else .ok (shapeWord port st.answer.1, st.answer.2.record (.input port 2 (shapeWord port st.answer.1)))
  else .ok (shapeByte port st.answer.1, st.answer.2.record (.input port 1 (shapeByte port st.answer.1)))

/-- A word with its high byte replaced. -/
def replaceHigh (w : Word) (b : Byte) : Word := wordOfBytes b (lowByte w)

/-- A word with its low byte replaced. -/
def replaceLow (w : Word) (b : Byte) : Word := wordOfBytes (highByte w) b

/-- What a 16-bit write of an even port leaves in the two limit registers (R34, R345, R271). -/
def State.limitsWord (st : State) (port : Byte) (w : Word) : State :=
  match port.toNat with
  | 0xF4 => st.withLowerLimit w
  | 0xF6 => st.withUpperLimit w
  | _ => st

/-- What an 8-bit write of a port leaves in the two limit registers: one byte of them, in the byte order of R63 (R71, log 19). -/
def State.limitsByte (st : State) (port : Byte) (b : Byte) : State :=
  match port.toNat with
  | 0xF4 => st.withLowerLimit (replaceHigh st.lowerLimit b)
  | 0xF5 => st.withLowerLimit (replaceLow st.lowerLimit b)
  | 0xF6 => st.withUpperLimit (replaceHigh st.upperLimit b)
  | 0xF7 => st.withUpperLimit (replaceLow st.upperLimit b)
  | _ => st

/-- `IOWrite(port, n, v)` (R71, R271, R350): an output event, and a new content of the limit registers at their ports. A byte write sends
bits 7..0 (R161). A 16-bit write of an odd port has no meaning (D19, U16, log 21). -/
def State.ioWrite (st : State) (port : Byte) (width : Nat) (w : Word) : Access State :=
  if width = 2 then
    if port.getLsbD 0 then .refused .oddIoPort
    else .ok ((st.limitsWord port w).record (.output port 2 w))
  else .ok ((st.limitsByte port (lowByte w)).record (.output port 1 ((lowByte w).setWidth 16)))

end Sys2Proof.Machine
end

