-- ==== Sys2Proof/Machine/Io.lean ====
section
/-! DEFINITION. IN and OUT (46_io.md, R270 to R272). -/

namespace Sys2Proof.Machine

/-- IN: privileged; Rd receives what the environment answers at the port (R270). -/
def doIn (rd : RegNum) (e : PortEa) (st : State) : Result :=
  gated .input st ((st.ioRead (portOf (ioPort st e).1) (ioPort st e).2).run st fun (v, st') => .next (st'.setX rd v))

/-- OUT: privileged; the content of Rd is sent to the port (R271). -/
def doOut (rd : RegNum) (e : PortEa) (st : State) : Result :=
  gated .output st ((st.ioWrite (portOf (ioPort st e).1) (ioPort st e).2 (st.x rd)).run st fun st' => .next st')

/-- IN, Direct (R270). -/
def execInDir (rd : RegNum) (dsp : Word) (st : State) : Result := doIn rd (.direct dsp) st

/-- IN, Register Indirect (R270). -/
def execInInd (rd : RegNum) (rx : RegNum) (st : State) : Result := doIn rd (.indirect rx) st

/-- IN, Byte Register Indirect (R270). -/
def execInByte (rd : RegNum) (rx : RegNum) (st : State) : Result := doIn rd (.byteIndirect rx) st

/-- OUT, Direct (R271). -/
def execOutDir (rd : RegNum) (dsp : Word) (st : State) : Result := doOut rd (.direct dsp) st

/-- OUT, Register Indirect (R271). -/
def execOutInd (rd : RegNum) (rx : RegNum) (st : State) : Result := doOut rd (.indirect rx) st

/-- OUT, Byte Register Indirect (R271). -/
def execOutByte (rd : RegNum) (rx : RegNum) (st : State) : Result := doOut rd (.byteIndirect rx) st

end Sys2Proof.Machine
end

