-- ==== Sys2Proof/Machine/Jump.lean ====
section
/-! DEFINITION. The fifteen jumps and CALL (45_jump_call.md, R240 to R258). -/

namespace Sys2Proof.Machine

/-- A jump: PC becomes the target if the condition holds, and stays at the next instruction otherwise; nothing else changes (R242). -/
def doJump (cc : Cond) (e : JumpEa) (st : State) : Result :=
  .next (if condHolds cc st.flag then st.withPc (jumpTarget st e) else st)

/-- CALL: the target computed, the address of the next instruction pushed, then the jump (R258, D35). -/
def doCall (e : JumpEa) (st : State) : Result :=
  (st.push st.pc).run st fun st' => .next (st'.withPc (jumpTarget st e))

/-- JZ, Direct (R243). -/
def execJzDir (dsp : Word) (st : State) : Result := doJump .z (.direct dsp) st

/-- JZ, Indexed (R243). -/
def execJzIdx (dsp : Word) (rx : RegNum) (st : State) : Result := doJump .z (.indexed dsp rx) st

/-- JZ, Register Indirect (R243). -/
def execJzInd (rx : RegNum) (st : State) : Result := doJump .z (.indirect rx) st

/-- JC, Direct (R244). -/
def execJcDir (dsp : Word) (st : State) : Result := doJump .c (.direct dsp) st

/-- JC, Indexed (R244). -/
def execJcIdx (dsp : Word) (rx : RegNum) (st : State) : Result := doJump .c (.indexed dsp rx) st

/-- JC, Register Indirect (R244). -/
def execJcInd (rx : RegNum) (st : State) : Result := doJump .c (.indirect rx) st

/-- JM, Direct (R245). -/
def execJmDir (dsp : Word) (st : State) : Result := doJump .m (.direct dsp) st

/-- JM, Indexed (R245). -/
def execJmIdx (dsp : Word) (rx : RegNum) (st : State) : Result := doJump .m (.indexed dsp rx) st

/-- JM, Register Indirect (R245). -/
def execJmInd (rx : RegNum) (st : State) : Result := doJump .m (.indirect rx) st

/-- JO, Direct (R246). -/
def execJoDir (dsp : Word) (st : State) : Result := doJump .o (.direct dsp) st

/-- JO, Indexed (R246). -/
def execJoIdx (dsp : Word) (rx : RegNum) (st : State) : Result := doJump .o (.indexed dsp rx) st

/-- JO, Register Indirect (R246). -/
def execJoInd (rx : RegNum) (st : State) : Result := doJump .o (.indirect rx) st

/-- JGT, Direct (R247). -/
def execJgtDir (dsp : Word) (st : State) : Result := doJump .gt (.direct dsp) st

/-- JGT, Indexed (R247). -/
def execJgtIdx (dsp : Word) (rx : RegNum) (st : State) : Result := doJump .gt (.indexed dsp rx) st

/-- JGT, Register Indirect (R247). -/
def execJgtInd (rx : RegNum) (st : State) : Result := doJump .gt (.indirect rx) st

/-- JGE, Direct (R248). -/
def execJgeDir (dsp : Word) (st : State) : Result := doJump .ge (.direct dsp) st

/-- JGE, Indexed (R248). -/
def execJgeIdx (dsp : Word) (rx : RegNum) (st : State) : Result := doJump .ge (.indexed dsp rx) st

/-- JGE, Register Indirect (R248). -/
def execJgeInd (rx : RegNum) (st : State) : Result := doJump .ge (.indirect rx) st

/-- JLE, Direct (R249). -/
def execJleDir (dsp : Word) (st : State) : Result := doJump .le (.direct dsp) st

/-- JLE, Indexed (R249). -/
def execJleIdx (dsp : Word) (rx : RegNum) (st : State) : Result := doJump .le (.indexed dsp rx) st

/-- JLE, Register Indirect (R249). -/
def execJleInd (rx : RegNum) (st : State) : Result := doJump .le (.indirect rx) st

/-- JLT, Direct (R250). -/
def execJltDir (dsp : Word) (st : State) : Result := doJump .lt (.direct dsp) st

/-- JLT, Indexed (R250). -/
def execJltIdx (dsp : Word) (rx : RegNum) (st : State) : Result := doJump .lt (.indexed dsp rx) st

/-- JLT, Register Indirect (R250). -/
def execJltInd (rx : RegNum) (st : State) : Result := doJump .lt (.indirect rx) st

/-- JNZ, Direct (R251). -/
def execJnzDir (dsp : Word) (st : State) : Result := doJump .nz (.direct dsp) st

/-- JNZ, Indexed (R251). -/
def execJnzIdx (dsp : Word) (rx : RegNum) (st : State) : Result := doJump .nz (.indexed dsp rx) st

/-- JNZ, Register Indirect (R251). -/
def execJnzInd (rx : RegNum) (st : State) : Result := doJump .nz (.indirect rx) st

/-- JNC, Direct (R252). -/
def execJncDir (dsp : Word) (st : State) : Result := doJump .nc (.direct dsp) st

/-- JNC, Indexed (R252). -/
def execJncIdx (dsp : Word) (rx : RegNum) (st : State) : Result := doJump .nc (.indexed dsp rx) st

/-- JNC, Register Indirect (R252). -/
def execJncInd (rx : RegNum) (st : State) : Result := doJump .nc (.indirect rx) st

/-- JNM, Direct (R253). -/
def execJnmDir (dsp : Word) (st : State) : Result := doJump .nm (.direct dsp) st

/-- JNM, Indexed (R253). -/
def execJnmIdx (dsp : Word) (rx : RegNum) (st : State) : Result := doJump .nm (.indexed dsp rx) st

/-- JNM, Register Indirect (R253). -/
def execJnmInd (rx : RegNum) (st : State) : Result := doJump .nm (.indirect rx) st

/-- JNO, Direct (R254). -/
def execJnoDir (dsp : Word) (st : State) : Result := doJump .no (.direct dsp) st

/-- JNO, Indexed (R254). -/
def execJnoIdx (dsp : Word) (rx : RegNum) (st : State) : Result := doJump .no (.indexed dsp rx) st

/-- JNO, Register Indirect (R254). -/
def execJnoInd (rx : RegNum) (st : State) : Result := doJump .no (.indirect rx) st

/-- JHI, Direct (R255). -/
def execJhiDir (dsp : Word) (st : State) : Result := doJump .hi (.direct dsp) st

/-- JHI, Indexed (R255). -/
def execJhiIdx (dsp : Word) (rx : RegNum) (st : State) : Result := doJump .hi (.indexed dsp rx) st

/-- JHI, Register Indirect (R255). -/
def execJhiInd (rx : RegNum) (st : State) : Result := doJump .hi (.indirect rx) st

/-- JLS, Direct (R256). -/
def execJlsDir (dsp : Word) (st : State) : Result := doJump .ls (.direct dsp) st

/-- JLS, Indexed (R256). -/
def execJlsIdx (dsp : Word) (rx : RegNum) (st : State) : Result := doJump .ls (.indexed dsp rx) st

/-- JLS, Register Indirect (R256). -/
def execJlsInd (rx : RegNum) (st : State) : Result := doJump .ls (.indirect rx) st

/-- JMP, Direct (R257). -/
def execJmpDir (dsp : Word) (st : State) : Result := doJump .always (.direct dsp) st

/-- JMP, Indexed (R257). -/
def execJmpIdx (dsp : Word) (rx : RegNum) (st : State) : Result := doJump .always (.indexed dsp rx) st

/-- JMP, Register Indirect (R257). -/
def execJmpInd (rx : RegNum) (st : State) : Result := doJump .always (.indirect rx) st

/-- CALL, Direct (R258). -/
def execCallDir (dsp : Word) (st : State) : Result := doCall (.direct dsp) st

/-- CALL, Indexed (R258). -/
def execCallIdx (dsp : Word) (rx : RegNum) (st : State) : Result := doCall (.indexed dsp rx) st

/-- CALL, Register Indirect (R258). -/
def execCallInd (rx : RegNum) (st : State) : Result := doCall (.indirect rx) st

end Sys2Proof.Machine
end

