-- ==== Sys2Proof/Machine/LoadStore.lean ====
section
/-! DEFINITION. NO, LD, LD Rd,FLAG and ST (41_no_load_store.md, R170 to R173). -/

namespace Sys2Proof.Machine

/-- LD: `v <- Operand(m); x[Rd] <- v`, no flag changed (R171). -/
def doLd (rd : RegNum) (e : Ea) (st : State) : Result :=
  (operand st e).run st fun v => .next (st.setX rd v)

/-- ST: the content of Rd written to the store target, a word or its low byte, no flag changed (R173). -/
def doSt (rd : RegNum) (e : MemEa) (st : State) : Result :=
  if (storeTarget st e).2 = 2 then ((st.writeWord (storeTarget st e).1 (st.x rd)).run st fun st' => .next st')
  else (st.writeByte (storeTarget st e).1 (lowByte (st.x rd))).run st fun st' => .next st'

/-- NO does nothing (R170). -/
def execNo (st : State) : Result := .next st

/-- LD, Direct (R171). -/
def execLdDir (rd : RegNum) (dsp : Word) (st : State) : Result := doLd rd (.direct dsp) st

/-- LD, Indexed (R171). -/
def execLdIdx (rd : RegNum) (dsp : Word) (rx : RegNum) (st : State) : Result := doLd rd (.indexed dsp rx) st

/-- LD, Immediate (R171). -/
def execLdImm (rd : RegNum) (imm : Word) (st : State) : Result := doLd rd (.immediate imm) st

/-- LD, FP Relative (R171). -/
def execLdFp (rd : RegNum) (d4 : BitVec 4) (st : State) : Result := doLd rd (.fpRel d4) st

/-- LD, Register (R171). -/
def execLdReg (rd : RegNum) (rs : RegNum) (st : State) : Result := doLd rd (.register rs) st

/-- LD, 4-bit immediate (R171). -/
def execLdImm4 (rd : RegNum) (i4 : BitVec 4) (st : State) : Result := doLd rd (.imm4 i4) st

/-- LD, Register Indirect (R171). -/
def execLdInd (rd : RegNum) (rx : RegNum) (st : State) : Result := doLd rd (.indirect rx) st

/-- LD, Byte Register Indirect (R171). -/
def execLdByte (rd : RegNum) (rx : RegNum) (st : State) : Result := doLd rd (.byteIndirect rx) st

/-- LD Rd,FLAG (R172). -/
def execLdFlag (rd : RegNum) (st : State) : Result := .next (st.setX rd st.flag.toWord)

/-- ST, Direct (R173). -/
def execStDir (rd : RegNum) (dsp : Word) (st : State) : Result := doSt rd (.direct dsp) st

/-- ST, Indexed (R173). -/
def execStIdx (rd : RegNum) (dsp : Word) (rx : RegNum) (st : State) : Result := doSt rd (.indexed dsp rx) st

/-- ST, FP Relative (R173). -/
def execStFp (rd : RegNum) (d4 : BitVec 4) (st : State) : Result := doSt rd (.fpRel d4) st

/-- ST, Register Indirect (R173). -/
def execStInd (rd : RegNum) (rx : RegNum) (st : State) : Result := doSt rd (.indirect rx) st

/-- ST, Byte Register Indirect (R173). -/
def execStByte (rd : RegNum) (rx : RegNum) (st : State) : Result := doSt rd (.byteIndirect rx) st

end Sys2Proof.Machine
end

