-- ==== Sys2Proof/Machine/MulDiv.lean ====
section
/-! DEFINITION. MUL, DIV, MOD, MULL and DIVL (43_multiply_divide.md, R200 to R207). DIV_SIGNED and MULL_SIGNED are unsigned (R200, D11,
D12, log 11). -/

namespace Sys2Proof.Machine

/-- MUL: the low word of the product (R203). -/
def doMul (rd : RegNum) (e : Ea) (st : State) : Result :=
  (operand st e).run st fun b =>
    .next ((st.setX rd (st.x rd * b)).withVcsz (flagsMulDiv (st.x rd * b)))

/-- DIV, unsigned; a zero operand changes nothing and raises ZeroDivide (R202, R205, D40). -/
def doDiv (rd : RegNum) (e : Ea) (st : State) : Result :=
  (operand st e).run st fun b =>
    if b = 0#16 then raise .zeroDivide st
    else .next ((st.setX rd (st.x rd / b)).withVcsz (flagsMulDiv (st.x rd / b)))

/-- MOD, unsigned; a zero operand changes nothing and raises ZeroDivide (R202, R206, D40). -/
def doMod (rd : RegNum) (e : Ea) (st : State) : Result :=
  (operand st e).run st fun b =>
    if b = 0#16 then raise .zeroDivide st
    else .next ((st.setX rd (st.x rd % b)).withVcsz (flagsMulDiv (st.x rd % b)))

/-- The number of the high word of a pair, Rd+1 (R200, D13, log 11). -/
def highOf (rd : RegNum) : RegNum := rd + 1#4

/-- The pair (Rd+1, Rd) written, Rd first, and the four result flags (R200, R204, R207). -/
def State.setPair (st : State) (rd : RegNum) (hi lo : Word) (r : Vcsz) : State :=
  ((st.setX rd lo).setX (highOf rd) hi).withVcsz r

/-- MULL, unsigned: the 32-bit product in the pair (R204); an odd Rd is outside its definition (R201, log 30). -/
def doMull (rd : RegNum) (e : Ea) (st : State) : Result :=
  if rd.getLsbD 0 then .refused .oddPair
  else (operand st e).run st fun b =>
    let p := (st.x rd).toNat * b.toNat
    .next (st.setPair rd (BitVec.ofNat 16 (p / 65536)) (BitVec.ofNat 16 p) (flagsMulDiv (BitVec.ofNat 16 p)))

/-- The dividend of DIVL, the pair with Rd+1 as the high word (R207). -/
def State.pairValue (st : State) (rd : RegNum) : Nat := (st.x (highOf rd)).toNat * 65536 + (st.x rd).toNat

/-- DIVL whose quotient does not fit in 16 bits: Rd, Rd+1 and the four flags hold any value, no trap (R207, D14, U7, log 12). -/
def State.divlFree (st : State) (rd : RegNum) : State :=
  (st.setPair rd (Config.freeWord (st.free + 1)) (Config.freeWord st.free)
    { v := Config.freeBit st.free, c := Config.freeBit (st.free + 1), s := Config.freeBit (st.free + 2),
      z := Config.freeBit (st.free + 3) }).withFree (st.free + 4)

/-- DIVL, unsigned: quotient in Rd, remainder in Rd+1 (R207); an odd Rd is outside its definition (R201, log 30); a zero operand changes
nothing and raises ZeroDivide (R202, D40). -/
def doDivl (rd : RegNum) (e : Ea) (st : State) : Result :=
  if rd.getLsbD 0 then .refused .oddPair
  else (operand st e).run st fun b =>
    let q := st.pairValue rd / b.toNat
    let r := st.pairValue rd % b.toNat
    if b = 0#16 then raise .zeroDivide st
    else if q < 65536 then .next (st.setPair rd (BitVec.ofNat 16 r) (BitVec.ofNat 16 q) (flagsMulDiv (BitVec.ofNat 16 q)))
    else .next (st.divlFree rd)

/-- MUL, Direct (R203). -/
def execMulDir (rd : RegNum) (dsp : Word) (st : State) : Result := doMul rd (.direct dsp) st

/-- MUL, Indexed (R203). -/
def execMulIdx (rd : RegNum) (dsp : Word) (rx : RegNum) (st : State) : Result := doMul rd (.indexed dsp rx) st

/-- MUL, Immediate (R203). -/
def execMulImm (rd : RegNum) (imm : Word) (st : State) : Result := doMul rd (.immediate imm) st

/-- MUL, FP Relative (R203). -/
def execMulFp (rd : RegNum) (d4 : BitVec 4) (st : State) : Result := doMul rd (.fpRel d4) st

/-- MUL, Register (R203). -/
def execMulReg (rd : RegNum) (rs : RegNum) (st : State) : Result := doMul rd (.register rs) st

/-- MUL, 4-bit immediate (R203). -/
def execMulImm4 (rd : RegNum) (i4 : BitVec 4) (st : State) : Result := doMul rd (.imm4 i4) st

/-- MUL, Register Indirect (R203). -/
def execMulInd (rd : RegNum) (rx : RegNum) (st : State) : Result := doMul rd (.indirect rx) st

/-- MUL, Byte Register Indirect (R203). -/
def execMulByte (rd : RegNum) (rx : RegNum) (st : State) : Result := doMul rd (.byteIndirect rx) st

/-- DIV, Direct (R205). -/
def execDivDir (rd : RegNum) (dsp : Word) (st : State) : Result := doDiv rd (.direct dsp) st

/-- DIV, Indexed (R205). -/
def execDivIdx (rd : RegNum) (dsp : Word) (rx : RegNum) (st : State) : Result := doDiv rd (.indexed dsp rx) st

/-- DIV, Immediate (R205). -/
def execDivImm (rd : RegNum) (imm : Word) (st : State) : Result := doDiv rd (.immediate imm) st

/-- DIV, FP Relative (R205). -/
def execDivFp (rd : RegNum) (d4 : BitVec 4) (st : State) : Result := doDiv rd (.fpRel d4) st

/-- DIV, Register (R205). -/
def execDivReg (rd : RegNum) (rs : RegNum) (st : State) : Result := doDiv rd (.register rs) st

/-- DIV, 4-bit immediate (R205). -/
def execDivImm4 (rd : RegNum) (i4 : BitVec 4) (st : State) : Result := doDiv rd (.imm4 i4) st

/-- DIV, Register Indirect (R205). -/
def execDivInd (rd : RegNum) (rx : RegNum) (st : State) : Result := doDiv rd (.indirect rx) st

/-- DIV, Byte Register Indirect (R205). -/
def execDivByte (rd : RegNum) (rx : RegNum) (st : State) : Result := doDiv rd (.byteIndirect rx) st

/-- MOD, Direct (R206). -/
def execModDir (rd : RegNum) (dsp : Word) (st : State) : Result := doMod rd (.direct dsp) st

/-- MOD, Indexed (R206). -/
def execModIdx (rd : RegNum) (dsp : Word) (rx : RegNum) (st : State) : Result := doMod rd (.indexed dsp rx) st

/-- MOD, Immediate (R206). -/
def execModImm (rd : RegNum) (imm : Word) (st : State) : Result := doMod rd (.immediate imm) st

/-- MOD, FP Relative (R206). -/
def execModFp (rd : RegNum) (d4 : BitVec 4) (st : State) : Result := doMod rd (.fpRel d4) st

/-- MOD, Register (R206). -/
def execModReg (rd : RegNum) (rs : RegNum) (st : State) : Result := doMod rd (.register rs) st

/-- MOD, 4-bit immediate (R206). -/
def execModImm4 (rd : RegNum) (i4 : BitVec 4) (st : State) : Result := doMod rd (.imm4 i4) st

/-- MOD, Register Indirect (R206). -/
def execModInd (rd : RegNum) (rx : RegNum) (st : State) : Result := doMod rd (.indirect rx) st

/-- MOD, Byte Register Indirect (R206). -/
def execModByte (rd : RegNum) (rx : RegNum) (st : State) : Result := doMod rd (.byteIndirect rx) st

/-- MULL, Direct (R204). -/
def execMullDir (rd : RegNum) (dsp : Word) (st : State) : Result := doMull rd (.direct dsp) st

/-- MULL, Indexed (R204). -/
def execMullIdx (rd : RegNum) (dsp : Word) (rx : RegNum) (st : State) : Result := doMull rd (.indexed dsp rx) st

/-- MULL, Immediate (R204). -/
def execMullImm (rd : RegNum) (imm : Word) (st : State) : Result := doMull rd (.immediate imm) st

/-- MULL, FP Relative (R204). -/
def execMullFp (rd : RegNum) (d4 : BitVec 4) (st : State) : Result := doMull rd (.fpRel d4) st

/-- MULL, Register (R204). -/
def execMullReg (rd : RegNum) (rs : RegNum) (st : State) : Result := doMull rd (.register rs) st

/-- MULL, 4-bit immediate (R204). -/
def execMullImm4 (rd : RegNum) (i4 : BitVec 4) (st : State) : Result := doMull rd (.imm4 i4) st

/-- MULL, Register Indirect (R204). -/
def execMullInd (rd : RegNum) (rx : RegNum) (st : State) : Result := doMull rd (.indirect rx) st

/-- MULL, Byte Register Indirect (R204). -/
def execMullByte (rd : RegNum) (rx : RegNum) (st : State) : Result := doMull rd (.byteIndirect rx) st

/-- DIVL, Direct (R207). -/
def execDivlDir (rd : RegNum) (dsp : Word) (st : State) : Result := doDivl rd (.direct dsp) st

/-- DIVL, Indexed (R207). -/
def execDivlIdx (rd : RegNum) (dsp : Word) (rx : RegNum) (st : State) : Result := doDivl rd (.indexed dsp rx) st

/-- DIVL, Immediate (R207). -/
def execDivlImm (rd : RegNum) (imm : Word) (st : State) : Result := doDivl rd (.immediate imm) st

/-- DIVL, FP Relative (R207). -/
def execDivlFp (rd : RegNum) (d4 : BitVec 4) (st : State) : Result := doDivl rd (.fpRel d4) st

/-- DIVL, Register (R207). -/
def execDivlReg (rd : RegNum) (rs : RegNum) (st : State) : Result := doDivl rd (.register rs) st

/-- DIVL, 4-bit immediate (R207). -/
def execDivlImm4 (rd : RegNum) (i4 : BitVec 4) (st : State) : Result := doDivl rd (.imm4 i4) st

/-- DIVL, Register Indirect (R207). -/
def execDivlInd (rd : RegNum) (rx : RegNum) (st : State) : Result := doDivl rd (.indirect rx) st

/-- DIVL, Byte Register Indirect (R207). -/
def execDivlByte (rd : RegNum) (rx : RegNum) (st : State) : Result := doDivl rd (.byteIndirect rx) st

end Sys2Proof.Machine
end

