-- ==== Sys2Proof/Machine/Shift.lean ====
section
/-! DEFINITION. SHLA, SHLL, SHRA and SHRL (44_shift.md, R220 to R225). -/

namespace Sys2Proof.Machine

/-- The flags of a shift by 16 or more with result `r`: S and Z are those of the result, C and V are free values (U8, log 13). -/
def flagsShiftFree (r : Word) (c v : Bool) : Vcsz := { v := v, c := c, s := signOf r, z := zeroOf r }

/-- A shift: result and last bit out for counts 0 to 15 (R220). For a count of 16 or more the spec states no result: the instruction runs,
the result, C and V are free values, and S and Z are those of the result (R220, U8, DESIGN CHOICE, log 13). -/
def doShift (result : Word → Nat → Word) (out : Word → Nat → Bool) (rd : RegNum) (e : Ea) (st : State) : Result :=
  (operand st e).run st fun b =>
    if b.toNat < 16 then
      .next ((st.setX rd (result (st.x rd) b.toNat)).withVcsz (flagsShift (result (st.x rd) b.toNat) (out (st.x rd) b.toNat)))
    else
      .next (((st.setX rd (Config.freeWord st.free)).withVcsz
        (flagsShiftFree (Config.freeWord st.free) (Config.freeBit st.free) (Config.freeBit (st.free + 1)))).withFree (st.free + 2))

/-- SHLA: `trunc16(u(a) * 2^n)` (R221). -/
def doShla (rd : RegNum) (e : Ea) (st : State) : Result := doShift (fun a n => a <<< n) carryLeft rd e st

/-- SHLL: the same result as SHLA (R222, R220). -/
def doShll (rd : RegNum) (e : Ea) (st : State) : Result := doShift (fun a n => a <<< n) carryLeft rd e st

/-- SHRA: copies of the sign bit enter from the left (R223). -/
def doShra (rd : RegNum) (e : Ea) (st : State) : Result := doShift (fun a n => a.sshiftRight n) carryRight rd e st

/-- SHRL: zeros enter from the left (R224). -/
def doShrl (rd : RegNum) (e : Ea) (st : State) : Result := doShift (fun a n => a >>> n) carryRight rd e st

/-- SHLA, Direct (R221). -/
def execShlaDir (rd : RegNum) (dsp : Word) (st : State) : Result := doShla rd (.direct dsp) st

/-- SHLA, Indexed (R221). -/
def execShlaIdx (rd : RegNum) (dsp : Word) (rx : RegNum) (st : State) : Result := doShla rd (.indexed dsp rx) st

/-- SHLA, Immediate (R221). -/
def execShlaImm (rd : RegNum) (imm : Word) (st : State) : Result := doShla rd (.immediate imm) st

/-- SHLA, FP Relative (R221). -/
def execShlaFp (rd : RegNum) (d4 : BitVec 4) (st : State) : Result := doShla rd (.fpRel d4) st

/-- SHLA, Register (R221). -/
def execShlaReg (rd : RegNum) (rs : RegNum) (st : State) : Result := doShla rd (.register rs) st

/-- SHLA, 4-bit immediate (R221). -/
def execShlaImm4 (rd : RegNum) (i4 : BitVec 4) (st : State) : Result := doShla rd (.imm4 i4) st

/-- SHLA, Register Indirect (R221). -/
def execShlaInd (rd : RegNum) (rx : RegNum) (st : State) : Result := doShla rd (.indirect rx) st

/-- SHLA, Byte Register Indirect (R221). -/
def execShlaByte (rd : RegNum) (rx : RegNum) (st : State) : Result := doShla rd (.byteIndirect rx) st

/-- SHLL, Direct (R222). -/
def execShllDir (rd : RegNum) (dsp : Word) (st : State) : Result := doShll rd (.direct dsp) st

/-- SHLL, Indexed (R222). -/
def execShllIdx (rd : RegNum) (dsp : Word) (rx : RegNum) (st : State) : Result := doShll rd (.indexed dsp rx) st

/-- SHLL, Immediate (R222). -/
def execShllImm (rd : RegNum) (imm : Word) (st : State) : Result := doShll rd (.immediate imm) st

/-- SHLL, FP Relative (R222). -/
def execShllFp (rd : RegNum) (d4 : BitVec 4) (st : State) : Result := doShll rd (.fpRel d4) st

/-- SHLL, Register (R222). -/
def execShllReg (rd : RegNum) (rs : RegNum) (st : State) : Result := doShll rd (.register rs) st

/-- SHLL, 4-bit immediate (R222). -/
def execShllImm4 (rd : RegNum) (i4 : BitVec 4) (st : State) : Result := doShll rd (.imm4 i4) st

/-- SHLL, Register Indirect (R222). -/
def execShllInd (rd : RegNum) (rx : RegNum) (st : State) : Result := doShll rd (.indirect rx) st

/-- SHLL, Byte Register Indirect (R222). -/
def execShllByte (rd : RegNum) (rx : RegNum) (st : State) : Result := doShll rd (.byteIndirect rx) st

/-- SHRA, Direct (R223). -/
def execShraDir (rd : RegNum) (dsp : Word) (st : State) : Result := doShra rd (.direct dsp) st

/-- SHRA, Indexed (R223). -/
def execShraIdx (rd : RegNum) (dsp : Word) (rx : RegNum) (st : State) : Result := doShra rd (.indexed dsp rx) st

/-- SHRA, Immediate (R223). -/
def execShraImm (rd : RegNum) (imm : Word) (st : State) : Result := doShra rd (.immediate imm) st

/-- SHRA, FP Relative (R223). -/
def execShraFp (rd : RegNum) (d4 : BitVec 4) (st : State) : Result := doShra rd (.fpRel d4) st

/-- SHRA, Register (R223). -/
def execShraReg (rd : RegNum) (rs : RegNum) (st : State) : Result := doShra rd (.register rs) st

/-- SHRA, 4-bit immediate (R223). -/
def execShraImm4 (rd : RegNum) (i4 : BitVec 4) (st : State) : Result := doShra rd (.imm4 i4) st

/-- SHRA, Register Indirect (R223). -/
def execShraInd (rd : RegNum) (rx : RegNum) (st : State) : Result := doShra rd (.indirect rx) st

/-- SHRA, Byte Register Indirect (R223). -/
def execShraByte (rd : RegNum) (rx : RegNum) (st : State) : Result := doShra rd (.byteIndirect rx) st

/-- SHRL, Direct (R224). -/
def execShrlDir (rd : RegNum) (dsp : Word) (st : State) : Result := doShrl rd (.direct dsp) st

/-- SHRL, Indexed (R224). -/
def execShrlIdx (rd : RegNum) (dsp : Word) (rx : RegNum) (st : State) : Result := doShrl rd (.indexed dsp rx) st

/-- SHRL, Immediate (R224). -/
def execShrlImm (rd : RegNum) (imm : Word) (st : State) : Result := doShrl rd (.immediate imm) st

/-- SHRL, FP Relative (R224). -/
def execShrlFp (rd : RegNum) (d4 : BitVec 4) (st : State) : Result := doShrl rd (.fpRel d4) st

/-- SHRL, Register (R224). -/
def execShrlReg (rd : RegNum) (rs : RegNum) (st : State) : Result := doShrl rd (.register rs) st

/-- SHRL, 4-bit immediate (R224). -/
def execShrlImm4 (rd : RegNum) (i4 : BitVec 4) (st : State) : Result := doShrl rd (.imm4 i4) st

/-- SHRL, Register Indirect (R224). -/
def execShrlInd (rd : RegNum) (rx : RegNum) (st : State) : Result := doShrl rd (.indirect rx) st

/-- SHRL, Byte Register Indirect (R224). -/
def execShrlByte (rd : RegNum) (rx : RegNum) (st : State) : Result := doShrl rd (.byteIndirect rx) st

end Sys2Proof.Machine
end

