-- ==== Sys2Proof/Machine/Stack.lean ====
section
/-! DEFINITION. PUSH, POP, RET and RETI (47_stack_return.md, R280 to R284). -/

namespace Sys2Proof.Machine

/-- Rd names the stack pointer in use: Dh in either mode, Eh in user mode (R281). -/
def State.namesSp (st : State) (rd : RegNum) : Bool := st.reg rd == st.reg spNum

/-- PUSH (R281). When Rd names the stack pointer in use it is refused (D35, U15, log 14). -/
def doPush (rd : RegNum) (st : State) : Result :=
  if st.namesSp rd then .refused .stackPointerOperand
  else (st.push (st.x rd)).run st fun st' => .next st'

/-- POP: the word popped, SP incremented, then Rd written (R282). When Rd names the stack pointer in use it is refused (D35, U15, log 15). -/
def doPop (rd : RegNum) (st : State) : Result :=
  if st.namesSp rd then .refused .stackPointerOperand
  else st.pop.run st fun (v, st') => .next (st'.setX rd v)

/-- RET: PC popped (R283). -/
def doRet (st : State) : Result := st.pop.run st fun (t, st') => .next (st'.withPc t)

/-- RETI in user mode, which the spec gives no rule of its own: of the alternatives of U14 the model takes the PrivilegeViolation trap
(R284 `RETI_USER`, DESIGN CHOICE, log 16). -/
def userReti (st : State) : Result := raise .privilegeViolation st

/-- RETI: the trap return in privileged mode (R284). -/
def doReti (st : State) : Result :=
  if st.flag.p then st.trapReturn.run st fun st' => .next st' else userReti st

/-- PUSH (R281). -/
def execPush (rd : RegNum) (st : State) : Result := doPush rd st

/-- POP (R282). -/
def execPop (rd : RegNum) (st : State) : Result := doPop rd st

/-- RET (R283). -/
def execRet (st : State) : Result := doRet st

/-- RETI (R284). -/
def execReti (st : State) : Result := doReti st

end Sys2Proof.Machine
end

