-- ==== Sys2Proof/Machine/System.lean ====
section
/-! DEFINITION. EI, DI, SVC and HALT (48_system.md, R300 to R304). -/

namespace Sys2Proof.Machine

/-- E written, the other flags kept (R300, R301). -/
def State.withE (st : State) (b : Bool) : State := st.withFlag { st.flag with e := b }

/-- EI (R300). -/
def execEi (st : State) : Result := gated .ei st (.next (st.withE true))

/-- DI (R301). -/
def execDi (st : State) : Result := gated .di st (.next (st.withE false))

/-- SVC takes the SVC exception, in either mode (R302). -/
def execSvc (st : State) : Result := raise .svc st

/-- HALT (R304, D28, log 28). -/
def execHalt (st : State) : Result := gated .halt st (.next (st.withHalted true))

end Sys2Proof.Machine
end

