-- ==== Sys2Proof/Machine/Dispatch.lean ====
section
/-! DEFINITION. One arm per instruction: each is one direct call of the instruction's meaning. While an arm runs, PC holds the address of
the next instruction (R26). -/

namespace Sys2Proof.Machine

def exec (i : Instr) (st : State) : Host.Outcome State Fault Refusal :=
  match i with
  | .no => Sys2Proof.Machine.execNo st
  | .ldDir rd dsp => Sys2Proof.Machine.execLdDir rd dsp st
  | .ldIdx rd dsp rx => Sys2Proof.Machine.execLdIdx rd dsp rx st
  | .ldImm rd imm => Sys2Proof.Machine.execLdImm rd imm st
  | .ldFp rd d4 => Sys2Proof.Machine.execLdFp rd d4 st
  | .ldReg rd rs => Sys2Proof.Machine.execLdReg rd rs st
  | .ldImm4 rd i4 => Sys2Proof.Machine.execLdImm4 rd i4 st
  | .ldInd rd rx => Sys2Proof.Machine.execLdInd rd rx st
  | .ldByte rd rx => Sys2Proof.Machine.execLdByte rd rx st
  | .ldFlag rd => Sys2Proof.Machine.execLdFlag rd st
  | .stDir rd dsp => Sys2Proof.Machine.execStDir rd dsp st
  | .stIdx rd dsp rx => Sys2Proof.Machine.execStIdx rd dsp rx st
  | .stFp rd d4 => Sys2Proof.Machine.execStFp rd d4 st
  | .stInd rd rx => Sys2Proof.Machine.execStInd rd rx st
  | .stByte rd rx => Sys2Proof.Machine.execStByte rd rx st
  | .addDir rd dsp => Sys2Proof.Machine.execAddDir rd dsp st
  | .addIdx rd dsp rx => Sys2Proof.Machine.execAddIdx rd dsp rx st
  | .addImm rd imm => Sys2Proof.Machine.execAddImm rd imm st
  | .addFp rd d4 => Sys2Proof.Machine.execAddFp rd d4 st
  | .addReg rd rs => Sys2Proof.Machine.execAddReg rd rs st
  | .addImm4 rd i4 => Sys2Proof.Machine.execAddImm4 rd i4 st
  | .addInd rd rx => Sys2Proof.Machine.execAddInd rd rx st
  | .addByte rd rx => Sys2Proof.Machine.execAddByte rd rx st
  | .subDir rd dsp => Sys2Proof.Machine.execSubDir rd dsp st
  | .subIdx rd dsp rx => Sys2Proof.Machine.execSubIdx rd dsp rx st
  | .subImm rd imm => Sys2Proof.Machine.execSubImm rd imm st
  | .subFp rd d4 => Sys2Proof.Machine.execSubFp rd d4 st
  | .subReg rd rs => Sys2Proof.Machine.execSubReg rd rs st
  | .subImm4 rd i4 => Sys2Proof.Machine.execSubImm4 rd i4 st
  | .subInd rd rx => Sys2Proof.Machine.execSubInd rd rx st
  | .subByte rd rx => Sys2Proof.Machine.execSubByte rd rx st
  | .cmpDir rd dsp => Sys2Proof.Machine.execCmpDir rd dsp st
  | .cmpIdx rd dsp rx => Sys2Proof.Machine.execCmpIdx rd dsp rx st
  | .cmpImm rd imm => Sys2Proof.Machine.execCmpImm rd imm st
  | .cmpFp rd d4 => Sys2Proof.Machine.execCmpFp rd d4 st
  | .cmpReg rd rs => Sys2Proof.Machine.execCmpReg rd rs st
  | .cmpImm4 rd i4 => Sys2Proof.Machine.execCmpImm4 rd i4 st
  | .cmpInd rd rx => Sys2Proof.Machine.execCmpInd rd rx st
  | .cmpByte rd rx => Sys2Proof.Machine.execCmpByte rd rx st
  | .andDir rd dsp => Sys2Proof.Machine.execAndDir rd dsp st
  | .andIdx rd dsp rx => Sys2Proof.Machine.execAndIdx rd dsp rx st
  | .andImm rd imm => Sys2Proof.Machine.execAndImm rd imm st
  | .andFp rd d4 => Sys2Proof.Machine.execAndFp rd d4 st
  | .andReg rd rs => Sys2Proof.Machine.execAndReg rd rs st
  | .andImm4 rd i4 => Sys2Proof.Machine.execAndImm4 rd i4 st
  | .andInd rd rx => Sys2Proof.Machine.execAndInd rd rx st
  | .andByte rd rx => Sys2Proof.Machine.execAndByte rd rx st
  | .orDir rd dsp => Sys2Proof.Machine.execOrDir rd dsp st
  | .orIdx rd dsp rx => Sys2Proof.Machine.execOrIdx rd dsp rx st
  | .orImm rd imm => Sys2Proof.Machine.execOrImm rd imm st
  | .orFp rd d4 => Sys2Proof.Machine.execOrFp rd d4 st
  | .orReg rd rs => Sys2Proof.Machine.execOrReg rd rs st
  | .orImm4 rd i4 => Sys2Proof.Machine.execOrImm4 rd i4 st
  | .orInd rd rx => Sys2Proof.Machine.execOrInd rd rx st
  | .orByte rd rx => Sys2Proof.Machine.execOrByte rd rx st
  | .xorDir rd dsp => Sys2Proof.Machine.execXorDir rd dsp st
  | .xorIdx rd dsp rx => Sys2Proof.Machine.execXorIdx rd dsp rx st
  | .xorImm rd imm => Sys2Proof.Machine.execXorImm rd imm st
  | .xorFp rd d4 => Sys2Proof.Machine.execXorFp rd d4 st
  | .xorReg rd rs => Sys2Proof.Machine.execXorReg rd rs st
  | .xorImm4 rd i4 => Sys2Proof.Machine.execXorImm4 rd i4 st
  | .xorInd rd rx => Sys2Proof.Machine.execXorInd rd rx st
  | .xorByte rd rx => Sys2Proof.Machine.execXorByte rd rx st
  | .addsDir rd dsp => Sys2Proof.Machine.execAddsDir rd dsp st
  | .addsIdx rd dsp rx => Sys2Proof.Machine.execAddsIdx rd dsp rx st
  | .addsImm rd imm => Sys2Proof.Machine.execAddsImm rd imm st
  | .addsFp rd d4 => Sys2Proof.Machine.execAddsFp rd d4 st
  | .addsReg rd rs => Sys2Proof.Machine.execAddsReg rd rs st
  | .addsImm4 rd i4 => Sys2Proof.Machine.execAddsImm4 rd i4 st
  | .addsInd rd rx => Sys2Proof.Machine.execAddsInd rd rx st
  | .addsByte rd rx => Sys2Proof.Machine.execAddsByte rd rx st
  | .mulDir rd dsp => Sys2Proof.Machine.execMulDir rd dsp st
  | .mulIdx rd dsp rx => Sys2Proof.Machine.execMulIdx rd dsp rx st
  | .mulImm rd imm => Sys2Proof.Machine.execMulImm rd imm st
  | .mulFp rd d4 => Sys2Proof.Machine.execMulFp rd d4 st
  | .mulReg rd rs => Sys2Proof.Machine.execMulReg rd rs st
  | .mulImm4 rd i4 => Sys2Proof.Machine.execMulImm4 rd i4 st
  | .mulInd rd rx => Sys2Proof.Machine.execMulInd rd rx st
  | .mulByte rd rx => Sys2Proof.Machine.execMulByte rd rx st
  | .divDir rd dsp => Sys2Proof.Machine.execDivDir rd dsp st
  | .divIdx rd dsp rx => Sys2Proof.Machine.execDivIdx rd dsp rx st
  | .divImm rd imm => Sys2Proof.Machine.execDivImm rd imm st
  | .divFp rd d4 => Sys2Proof.Machine.execDivFp rd d4 st
  | .divReg rd rs => Sys2Proof.Machine.execDivReg rd rs st
  | .divImm4 rd i4 => Sys2Proof.Machine.execDivImm4 rd i4 st
  | .divInd rd rx => Sys2Proof.Machine.execDivInd rd rx st
  | .divByte rd rx => Sys2Proof.Machine.execDivByte rd rx st
  | .modDir rd dsp => Sys2Proof.Machine.execModDir rd dsp st
  | .modIdx rd dsp rx => Sys2Proof.Machine.execModIdx rd dsp rx st
  | .modImm rd imm => Sys2Proof.Machine.execModImm rd imm st
  | .modFp rd d4 => Sys2Proof.Machine.execModFp rd d4 st
  | .modReg rd rs => Sys2Proof.Machine.execModReg rd rs st
  | .modImm4 rd i4 => Sys2Proof.Machine.execModImm4 rd i4 st
  | .modInd rd rx => Sys2Proof.Machine.execModInd rd rx st
  | .modByte rd rx => Sys2Proof.Machine.execModByte rd rx st
  | .mullDir rd dsp => Sys2Proof.Machine.execMullDir rd dsp st
  | .mullIdx rd dsp rx => Sys2Proof.Machine.execMullIdx rd dsp rx st
  | .mullImm rd imm => Sys2Proof.Machine.execMullImm rd imm st
  | .mullFp rd d4 => Sys2Proof.Machine.execMullFp rd d4 st
  | .mullReg rd rs => Sys2Proof.Machine.execMullReg rd rs st
  | .mullImm4 rd i4 => Sys2Proof.Machine.execMullImm4 rd i4 st
  | .mullInd rd rx => Sys2Proof.Machine.execMullInd rd rx st
  | .mullByte rd rx => Sys2Proof.Machine.execMullByte rd rx st
  | .divlDir rd dsp => Sys2Proof.Machine.execDivlDir rd dsp st
  | .divlIdx rd dsp rx => Sys2Proof.Machine.execDivlIdx rd dsp rx st
  | .divlImm rd imm => Sys2Proof.Machine.execDivlImm rd imm st
  | .divlFp rd d4 => Sys2Proof.Machine.execDivlFp rd d4 st
  | .divlReg rd rs => Sys2Proof.Machine.execDivlReg rd rs st
  | .divlImm4 rd i4 => Sys2Proof.Machine.execDivlImm4 rd i4 st
  | .divlInd rd rx => Sys2Proof.Machine.execDivlInd rd rx st
  | .divlByte rd rx => Sys2Proof.Machine.execDivlByte rd rx st
  | .shlaDir rd dsp => Sys2Proof.Machine.execShlaDir rd dsp st
  | .shlaIdx rd dsp rx => Sys2Proof.Machine.execShlaIdx rd dsp rx st
  | .shlaImm rd imm => Sys2Proof.Machine.execShlaImm rd imm st
  | .shlaFp rd d4 => Sys2Proof.Machine.execShlaFp rd d4 st
  | .shlaReg rd rs => Sys2Proof.Machine.execShlaReg rd rs st
  | .shlaImm4 rd i4 => Sys2Proof.Machine.execShlaImm4 rd i4 st
  | .shlaInd rd rx => Sys2Proof.Machine.execShlaInd rd rx st
  | .shlaByte rd rx => Sys2Proof.Machine.execShlaByte rd rx st
  | .shllDir rd dsp => Sys2Proof.Machine.execShllDir rd dsp st
  | .shllIdx rd dsp rx => Sys2Proof.Machine.execShllIdx rd dsp rx st
  | .shllImm rd imm => Sys2Proof.Machine.execShllImm rd imm st
  | .shllFp rd d4 => Sys2Proof.Machine.execShllFp rd d4 st
  | .shllReg rd rs => Sys2Proof.Machine.execShllReg rd rs st
  | .shllImm4 rd i4 => Sys2Proof.Machine.execShllImm4 rd i4 st
  | .shllInd rd rx => Sys2Proof.Machine.execShllInd rd rx st
  | .shllByte rd rx => Sys2Proof.Machine.execShllByte rd rx st
  | .shraDir rd dsp => Sys2Proof.Machine.execShraDir rd dsp st
  | .shraIdx rd dsp rx => Sys2Proof.Machine.execShraIdx rd dsp rx st
  | .shraImm rd imm => Sys2Proof.Machine.execShraImm rd imm st
  | .shraFp rd d4 => Sys2Proof.Machine.execShraFp rd d4 st
  | .shraReg rd rs => Sys2Proof.Machine.execShraReg rd rs st
  | .shraImm4 rd i4 => Sys2Proof.Machine.execShraImm4 rd i4 st
  | .shraInd rd rx => Sys2Proof.Machine.execShraInd rd rx st
  | .shraByte rd rx => Sys2Proof.Machine.execShraByte rd rx st
  | .shrlDir rd dsp => Sys2Proof.Machine.execShrlDir rd dsp st
  | .shrlIdx rd dsp rx => Sys2Proof.Machine.execShrlIdx rd dsp rx st
  | .shrlImm rd imm => Sys2Proof.Machine.execShrlImm rd imm st
  | .shrlFp rd d4 => Sys2Proof.Machine.execShrlFp rd d4 st
  | .shrlReg rd rs => Sys2Proof.Machine.execShrlReg rd rs st
  | .shrlImm4 rd i4 => Sys2Proof.Machine.execShrlImm4 rd i4 st
  | .shrlInd rd rx => Sys2Proof.Machine.execShrlInd rd rx st
  | .shrlByte rd rx => Sys2Proof.Machine.execShrlByte rd rx st
  | .jzDir dsp => Sys2Proof.Machine.execJzDir dsp st
  | .jzIdx dsp rx => Sys2Proof.Machine.execJzIdx dsp rx st
  | .jzInd rx => Sys2Proof.Machine.execJzInd rx st
  | .jcDir dsp => Sys2Proof.Machine.execJcDir dsp st
  | .jcIdx dsp rx => Sys2Proof.Machine.execJcIdx dsp rx st
  | .jcInd rx => Sys2Proof.Machine.execJcInd rx st
  | .jmDir dsp => Sys2Proof.Machine.execJmDir dsp st
  | .jmIdx dsp rx => Sys2Proof.Machine.execJmIdx dsp rx st
  | .jmInd rx => Sys2Proof.Machine.execJmInd rx st
  | .joDir dsp => Sys2Proof.Machine.execJoDir dsp st
  | .joIdx dsp rx => Sys2Proof.Machine.execJoIdx dsp rx st
  | .joInd rx => Sys2Proof.Machine.execJoInd rx st
  | .jgtDir dsp => Sys2Proof.Machine.execJgtDir dsp st
  | .jgtIdx dsp rx => Sys2Proof.Machine.execJgtIdx dsp rx st
  | .jgtInd rx => Sys2Proof.Machine.execJgtInd rx st
  | .jgeDir dsp => Sys2Proof.Machine.execJgeDir dsp st
  | .jgeIdx dsp rx => Sys2Proof.Machine.execJgeIdx dsp rx st
  | .jgeInd rx => Sys2Proof.Machine.execJgeInd rx st
  | .jleDir dsp => Sys2Proof.Machine.execJleDir dsp st
  | .jleIdx dsp rx => Sys2Proof.Machine.execJleIdx dsp rx st
  | .jleInd rx => Sys2Proof.Machine.execJleInd rx st
  | .jltDir dsp => Sys2Proof.Machine.execJltDir dsp st
  | .jltIdx dsp rx => Sys2Proof.Machine.execJltIdx dsp rx st
  | .jltInd rx => Sys2Proof.Machine.execJltInd rx st
  | .jnzDir dsp => Sys2Proof.Machine.execJnzDir dsp st
  | .jnzIdx dsp rx => Sys2Proof.Machine.execJnzIdx dsp rx st
  | .jnzInd rx => Sys2Proof.Machine.execJnzInd rx st
  | .jncDir dsp => Sys2Proof.Machine.execJncDir dsp st
  | .jncIdx dsp rx => Sys2Proof.Machine.execJncIdx dsp rx st
  | .jncInd rx => Sys2Proof.Machine.execJncInd rx st
  | .jnmDir dsp => Sys2Proof.Machine.execJnmDir dsp st
  | .jnmIdx dsp rx => Sys2Proof.Machine.execJnmIdx dsp rx st
  | .jnmInd rx => Sys2Proof.Machine.execJnmInd rx st
  | .jnoDir dsp => Sys2Proof.Machine.execJnoDir dsp st
  | .jnoIdx dsp rx => Sys2Proof.Machine.execJnoIdx dsp rx st
  | .jnoInd rx => Sys2Proof.Machine.execJnoInd rx st
  | .jhiDir dsp => Sys2Proof.Machine.execJhiDir dsp st
  | .jhiIdx dsp rx => Sys2Proof.Machine.execJhiIdx dsp rx st
  | .jhiInd rx => Sys2Proof.Machine.execJhiInd rx st
  | .jlsDir dsp => Sys2Proof.Machine.execJlsDir dsp st
  | .jlsIdx dsp rx => Sys2Proof.Machine.execJlsIdx dsp rx st
  | .jlsInd rx => Sys2Proof.Machine.execJlsInd rx st
  | .jmpDir dsp => Sys2Proof.Machine.execJmpDir dsp st
  | .jmpIdx dsp rx => Sys2Proof.Machine.execJmpIdx dsp rx st
  | .jmpInd rx => Sys2Proof.Machine.execJmpInd rx st
  | .callDir dsp => Sys2Proof.Machine.execCallDir dsp st
  | .callIdx dsp rx => Sys2Proof.Machine.execCallIdx dsp rx st
  | .callInd rx => Sys2Proof.Machine.execCallInd rx st
  | .inDir rd dsp => Sys2Proof.Machine.execInDir rd dsp st
  | .inInd rd rx => Sys2Proof.Machine.execInInd rd rx st
  | .inByte rd rx => Sys2Proof.Machine.execInByte rd rx st
  | .outDir rd dsp => Sys2Proof.Machine.execOutDir rd dsp st
  | .outInd rd rx => Sys2Proof.Machine.execOutInd rd rx st
  | .outByte rd rx => Sys2Proof.Machine.execOutByte rd rx st
  | .push rd => Sys2Proof.Machine.execPush rd st
  | .pop rd => Sys2Proof.Machine.execPop rd st
  | .ret => Sys2Proof.Machine.execRet st
  | .reti => Sys2Proof.Machine.execReti st
  | .ei => Sys2Proof.Machine.execEi st
  | .di => Sys2Proof.Machine.execDi st
  | .svc => Sys2Proof.Machine.execSvc st
  | .halt => Sys2Proof.Machine.execHalt st

end Sys2Proof.Machine
end

