-- ==== Sys2Proof/Machine/Fetch.lean ====
section
/-! DEFINITION. Fetching an instruction: R26, R70, R110, R115, R119 to R121, R321. -/

namespace Sys2Proof.Machine

/-- What a fetch ends in. -/
inductive Fetched where
  /-- An instruction, with PC past its words (R26). -/
  | run (i : Instr) (st : State)
  /-- An exception with its return address (R321). -/
  | trap (e : Exc) (retpc : Word)
  | fault (r : Fault)
  | refused (r : Refusal)

/-- The refusal of an encoding the spec gives no meaning (R120, R121, log 29). -/
def reservedRefusal : Reserved → Refusal
  | .mustBeZero => .mustBeZero
  | .jumpConditionD => .jumpConditionD

/-- `Fetch(PC); PC <- PC +16 2` (R26, R27, R70). A fetch that raises an exception saves the address of the word it fetched (R321, D23,
log 18). -/
def State.fetchWord (st : State) (k : Word → State → Fetched) : Fetched :=
  match st.readWord .fetch st.pc with
  | .ok w => k w (st.withPc (st.pc + 2#16))
  | .raised e => .trap e st.pc
  | .fault r => .fault r
  | .refused r => .refused r

/-- The fetch of an instruction (R26, R115). A blank cell of the opcode map raises UndefinedInstruction after one word, with the address of
the following word (R119, R326). -/
def fetch (st : State) : Fetched :=
  st.fetchWord fun w1 st1 =>
    match decodeFirst w1 with
    | .undefined => .trap .undefinedInstruction st1.pc
    | .reserved why => .refused (reservedRefusal why)
    | .one i => .run i st1
    | .two f => st1.fetchWord fun w2 st2 => .run (f w2) st2

/-- Bytes put in memory from an address on, as an image given from outside (R382, log 4). -/
def Memory.load (m : Memory) (a : Word) (bytes : List Byte) : Memory :=
  match bytes with
  | [] => m
  | b :: rest => Memory.load (m.write a.toNat b) (a + 1#16) rest

end Sys2Proof.Machine
end

