-- ==== Sys2Proof/Machine/Cycle.lean ====
section
/-! DEFINITION. The instruction cycle (R26): a halted CPU takes no step; then the boundary, where an interrupt may be taken; then one
instruction. -/

namespace Sys2Proof.Machine

/-- What the cycle does with what it fetched: the instruction runs with PC past its words, or the exception of the fetch is taken (R26,
R334, R335). -/
def Fetched.finish (f : Fetched) (st : State) : Result :=
  match f with
  | .run i st' => exec i st'
  | .trap e retpc => trapEntry (.exception e) retpc st
  | .fault r => .fault r
  | .refused r => .refused r

/-- The cycle from a boundary whose requests have been received: an enabled pending interrupt is taken instead of a fetch, and the saved PC
is the address of the instruction that would have been fetched (R331). -/
def boundary (st : State) : Result :=
  match st.acceptInterrupt with
  | some (n, st') => trapEntry (.interrupt n) st'.pc st'
  | none => (fetch st).finish st

/-- One step of the CPU (R26). -/
def cycle (st : State) : Result :=
  if st.halted then .fault .halted else boundary st.receive

end Sys2Proof.Machine
end

