-- ==== Sys2Proof/Machine/Step.lean ====
section
/-! DEFINITION. The step, and the state that a step runs a given instruction from. -/

namespace Sys2Proof.Machine

/-- One step of the CPU (R26). -/
def step (st : State) : Host.Outcome State Fault Refusal := cycle st

/-- The state with an instruction stored at PC, where the step fetches: its bits are `w`, numbered as the opcode table numbers them, and
every bit above `nbits` is 0. The two words are put in memory as an image given from outside (R382, log 4), so the place may be in the
ROM. Nothing else changes: in a state that is not halted, has no interrupt to take and an even PC outside E000h to EFFFh (in user mode,
with the fetches not rejected), the next step fetches and runs this instruction. -/
def State.withFetchWord (st : State) (nbits w : Nat) : State :=
  st.withMem (st.mem.load st.pc (bytesOfWords (tableWords nbits w)))

end Sys2Proof.Machine
end

