-- ==== Sys2Proof/Machine/Asm.lean ====
section
/-! DEFINITION. The assembler's operand texts and its choice among forms (R123, R124, R116). No step reads a text; numbers are written in
decimal, since the source gives no number format (N21, DESIGN CHOICE, log 35). -/

namespace Sys2Proof.Machine

/-- The name of a register (R23, R123). For register Ch the spec allows two names, G12 and FP, and says which one only where the text is
`0,G12` or `0,FP` (R124, D42): everywhere else the model writes FP (DESIGN CHOICE, log 35). -/
def regText (r : RegNum) : String :=
  match r.toNat with
  | 12 => "FP"
  | 13 => "SP"
  | 14 => "USP"
  | 15 => "PC"
  | n => "G" ++ toString n

/-- The name of Rx in the text `0,Rx` of Register Indirect: register Ch is G12 there, since `0,FP` is FP Relative (R124, D42). -/
def indirectText (rx : RegNum) : String := if rx = 12#4 then "G12" else regText rx

/-- The written displacement Dsp4, twice D4 (R116, 注2). -/
def dsp4Of (d4 : BitVec 4) : Int := 2 * d4.toInt

/-- A value operand as written (R124). -/
def eaText : Ea → String
  | .direct dsp => toString dsp.toNat
  | .indexed dsp rx => toString dsp.toNat ++ "," ++ regText rx
  | .immediate imm => "#" ++ toString imm.toNat
  | .fpRel d4 => toString (dsp4Of d4) ++ ",FP"
  | .register rs => regText rs
  | .imm4 i4 => "#" ++ toString i4.toInt
  | .indirect rx => "0," ++ indirectText rx
  | .byteIndirect rx => "@" ++ regText rx

/-- A store target as the value operand that is written the same way (R124). -/
def memEaForm : MemEa → Ea
  | .direct dsp => .direct dsp
  | .indexed dsp rx => .indexed dsp rx
  | .fpRel d4 => .fpRel d4
  | .indirect rx => .indirect rx
  | .byteIndirect rx => .byteIndirect rx

/-- A jump target as the value operand that is written the same way (R124). -/
def jumpEaForm : JumpEa → Ea
  | .direct dsp => .direct dsp
  | .indexed dsp rx => .indexed dsp rx
  | .indirect rx => .indirect rx

/-- A port operand as the value operand that is written the same way (R124). -/
def portEaForm : PortEa → Ea
  | .direct dsp => .direct dsp
  | .indirect rx => .indirect rx
  | .byteIndirect rx => .byteIndirect rx

/-- The mnemonic of an operation with a value operand (R123). -/
def opText : EaOp → String
  | .ld => "LD"
  | .add => "ADD"
  | .sub => "SUB"
  | .cmp => "CMP"
  | .and => "AND"
  | .or => "OR"
  | .xor => "XOR"
  | .adds => "ADDS"
  | .mul => "MUL"
  | .div => "DIV"
  | .mod => "MOD"
  | .mull => "MULL"
  | .divl => "DIVL"
  | .shla => "SHLA"
  | .shll => "SHLL"
  | .shra => "SHRA"
  | .shrl => "SHRL"

/-- The mnemonic of a jump (R121, R123). -/
def jumpText : Cond → String
  | .z => "JZ"
  | .c => "JC"
  | .m => "JM"
  | .o => "JO"
  | .gt => "JGT"
  | .ge => "JGE"
  | .le => "JLE"
  | .lt => "JLT"
  | .nz => "JNZ"
  | .nc => "JNC"
  | .nm => "JNM"
  | .no => "JNO"
  | .hi => "JHI"
  | .ls => "JLS"
  | .always => "JMP"

/-- An instruction as written in assembly (R123, R124). -/
def instrText (i : Instr) : String :=
  match i.view with
  | .no => "NO"
  | .ea o rd e => opText o ++ " " ++ regText rd ++ "," ++ eaText e
  | .ldFlag rd => "LD " ++ regText rd ++ ",FLAG"
  | .st rd e => "ST " ++ regText rd ++ "," ++ eaText (memEaForm e)
  | .jump cc e => jumpText cc ++ " " ++ eaText (jumpEaForm e)
  | .call e => "CALL " ++ eaText (jumpEaForm e)
  | .input rd e => "IN " ++ regText rd ++ "," ++ eaText (portEaForm e)
  | .output rd e => "OUT " ++ regText rd ++ "," ++ eaText (portEaForm e)
  | .push rd => "PUSH " ++ regText rd
  | .pop rd => "POP " ++ regText rd
  | .ret => "RET"
  | .reti => "RETI"
  | .ei => "EI"
  | .di => "DI"
  | .svc => "SVC"
  | .halt => "HALT"

/-- The form the assembler picks for `#n`: the 4-bit immediate when -8 <= n <= 7, the two-word Immediate otherwise (R124). -/
def immForm (n : Int) : Ea :=
  if -8 ≤ n ∧ n ≤ 7 then .imm4 (BitVec.ofInt 4 n) else .immediate (BitVec.ofInt 16 n)

/-- The form the assembler picks for `d,FP`: FP Relative when d is even and -16 <= d <= 14, Indexed with Rx = Ch otherwise (R124). -/
def fpForm (d : Int) : Ea :=
  if d % 2 = 0 ∧ -16 ≤ d ∧ d ≤ 14 then .fpRel (BitVec.ofInt 4 (d / 2)) else .indexed (BitVec.ofInt 16 d) 12#4

/-- The form the assembler picks for `d,Rx` with Rx under another name than FP (register Ch is then G12, D42): Register Indirect when d = 0, Indexed otherwise (R124). -/
def indexForm (d : Int) (rx : RegNum) : Ea :=
  if d = 0 then .indirect rx else .indexed (BitVec.ofInt 16 d) rx

end Sys2Proof.Machine
end

