-- ==== Sys2Proof/Machine/Timing.lean ====
section
/-! DEFINITION. The state counts of the instruction table (R390 to R394). They are properties of the implementation that no instruction's
result depends on (R390): the step does not use them (log 33). -/

namespace Sys2Proof.Machine

/-- One of eight counts, by the mode of a value operand in the order Drct, Index, Imm, FP Rlt, Reg, Imm4, Indr, B Indr (R391). -/
def byMode (e : Ea) (drct index imm fpRlt reg imm4 indr bIndr : Nat) : Nat :=
  match e with
  | .direct _ => drct
  | .indexed _ _ => index
  | .immediate _ => imm
  | .fpRel _ => fpRlt
  | .register _ => reg
  | .imm4 _ => imm4
  | .indirect _ => indr
  | .byteIndirect _ => bIndr

/-- The counts of the operations with a value operand, before what is added for a shift (R392). -/
def eaStates (o : EaOp) (e : Ea) : Nat :=
  match o with
  | .ld => byMode e 7 7 5 7 4 4 6 6
  | .add | .sub | .cmp | .and | .or | .xor => byMode e 7 7 5 7 5 4 6 6
  | .adds => byMode e 8 8 6 8 6 5 7 7
  | .mul | .mull => byMode e 57 57 55 57 55 54 56 56
  | .div | .mod | .divl => byMode e 73 73 71 73 71 70 72 72
  | .shla | .shll | .shra | .shrl => byMode e 8 8 6 8 6 5 7 7

/-- What depends on the operand's value: n more for a shift by n, known for n up to 15 (R391, U8); no count is given for a zero divisor
(R393) nor for an operand access that does not succeed (R393). -/
def eaExtra (o : EaOp) (b : Access Word) : Option Nat :=
  match o, b with
  | .shla, .ok n | .shll, .ok n | .shra, .ok n | .shrl, .ok n => if n.toNat < 16 then some n.toNat else none
  | .div, .ok n | .mod, .ok n | .divl, .ok n => if n = 0#16 then none else some 0
  | _, .ok _ => some 0
  | _, _ => none

/-- The counts of ST (R392). -/
def stStates : MemEa → Nat
  | .direct _ => 6
  | .indexed _ _ => 6
  | .fpRel _ => 6
  | .indirect _ => 5
  | .byteIndirect _ => 5

/-- The counts of IN; those of OUT are one less (R392). -/
def inStates : PortEa → Nat
  | .direct _ => 7
  | .indirect _ => 6
  | .byteIndirect _ => 6

/-- The number of states an instruction takes when it runs to its end in a state, where the source gives it (R392); the counts of SVC and
HALT are lost (R394). A conditional jump takes 5 when taken and 4 when not (R391). -/
def stateCount (i : Instr) (st : State) : Option Nat :=
  match i.view with
  | .no => some 3
  | .ea o _ e => (eaExtra o (operand st e)).map (eaStates o e + ·)
  | .ldFlag _ => some 4
  | .st _ e => some (stStates e)
  | .jump cc _ => some (if condHolds cc st.flag then 5 else 4)
  | .call _ => some 6
  | .input _ e => some (inStates e)
  | .output _ e => some (inStates e - 1)
  | .push _ => some 5
  | .pop _ => some 6
  | .ret => some 6
  | .reti => some 9
  | .ei => some 5
  | .di => some 5
  | .svc => none
  | .halt => none

end Sys2Proof.Machine
end

