-- ==== Sys2Proof/Safety.lean ====
section
/-! DEFINITION. The terms in which the statements about the machine are written: the invariant, what a state keeps of another, when an
access is allowed, and what a trap leaves. -/

namespace Sys2Proof.Machine

/-- The invariant of every state: the memory is in canonical form. -/
def MemInv (s : State) : Prop := s.mem.wf

/-! ## What one state keeps of another -/

/-- Every register but those listed is as before; PC is one of the registers. -/
def sameRegsBut (xs : List Reg) (s t : State) : Prop := ∀ x, x ∉ xs → t.get x = s.get x

/-- Every byte of memory reads as before. -/
def sameBytes (s t : State) : Prop := ∀ a : Nat, t.byteAt a = s.byteAt a

/-- Every byte of memory outside the listed addresses reads as before. -/
def sameBytesBut (as : List Word) (s t : State) : Prop := ∀ a : Nat, (∀ b ∈ as, a ≠ b.toNat) → t.byteAt a = s.byteAt a

/-- What no register, flag or memory access touches is as before: `halted`, the pending requests, the limit registers, the I/O trace, and
the environment's plans. -/
def samePlatform (s t : State) : Prop :=
  t.halted = s.halted ∧ t.pending = s.pending ∧ t.lowerLimit = s.lowerLimit ∧ t.upperLimit = s.upperLimit ∧
    t.ioTrace = s.ioTrace ∧ t.ioAnswers = s.ioAnswers ∧ t.requests = s.requests

/-- E and P are as before. -/
def sameMode (s t : State) : Prop := t.flag.e = s.flag.e ∧ t.flag.p = s.flag.p

/-- Nothing but the listed registers changes. -/
def onlyRegs (xs : List Reg) (s t : State) : Prop :=
  sameRegsBut xs s t ∧ t.flag = s.flag ∧ sameBytes s t ∧ samePlatform s t ∧ t.free = s.free

/-- Nothing but the listed registers and V, C, S, Z changes. -/
def onlyRegsVcsz (xs : List Reg) (s t : State) : Prop :=
  sameRegsBut xs s t ∧ sameMode s t ∧ sameBytes s t ∧ samePlatform s t ∧ t.free = s.free

/-- Nothing but the listed registers and the listed bytes of memory changes. -/
def onlyRegsBytes (xs : List Reg) (as : List Word) (s t : State) : Prop :=
  sameRegsBut xs s t ∧ t.flag = s.flag ∧ sameBytesBut as s t ∧ samePlatform s t ∧ t.free = s.free

/-- The four result flags have these values. -/
def resultFlags (t : State) (v c s z : Prop) : Prop :=
  (t.flag.v = true ↔ v) ∧ (t.flag.c = true ↔ c) ∧ (t.flag.s = true ↔ s) ∧ (t.flag.z = true ↔ z)

/-- An integer is the value of a 16-bit two's-complement word. -/
def fits16 (n : Int) : Prop := -32768 ≤ n ∧ n < 32768

/-! ## When an access is allowed -/

/-- A word may be written at an address: it is even, the protection does not reject it, and it is in RAM or in the vector table. -/
def writableWord (s : State) (a : Word) : Prop :=
  a.toNat % 2 = 0 ∧ s.rejects .write a = false ∧ (a.toNat < 0xE000 ∨ 0xFFE0 ≤ a.toNat)

/-- A byte may be written at an address. -/
def writableByte (s : State) (a : Word) : Prop :=
  s.rejects .write a = false ∧ (a.toNat < 0xE000 ∨ 0xFFE0 ≤ a.toNat)

/-- A word may be read at an address, and memory holds it there. -/
def readableWord (s : State) (kind : AccessKind) (a w : Word) : Prop :=
  a.toNat % 2 = 0 ∧ s.rejects kind a = false ∧ (a.toNat < 0xE000 ∨ 0xF000 ≤ a.toNat) ∧
    s.byteAt a.toNat = some (highByte w) ∧ s.byteAt (a + 1#16).toNat = some (lowByte w)

/-- A byte may be read at an address, and memory holds it there. -/
def readableByte (s : State) (a : Word) (b : Byte) : Prop :=
  s.rejects .read a = false ∧ (a.toNat < 0xE000 ∨ 0xF000 ≤ a.toNat) ∧ s.byteAt a.toNat = some b

/-- Memory holds a word at an address: its high byte there, its low byte at the next address. -/
def holdsWord (s : State) (a w : Word) : Prop :=
  s.byteAt a.toNat = some (highByte w) ∧ s.byteAt (a + 1#16).toNat = some (lowByte w)

/-! ## Traps -/

/-- The address of the vector with a number (R76). -/
def vectorAt (n : Nat) : Word := BitVec.ofNat 16 (0xFFE0 + 2 * n)

/-- Trap entry can be done: SSP - 2 and SSP - 4 are even addresses in RAM or in the vector table, and the vector holds a word. -/
def trapReady (n : Nat) (s : State) : Prop :=
  s.ssp.toNat % 2 = 0 ∧
  ((s.ssp - 2#16).toNat < 0xE000 ∨ 0xFFE0 ≤ (s.ssp - 2#16).toNat) ∧
  ((s.ssp - 4#16).toNat < 0xE000 ∨ 0xFFE0 ≤ (s.ssp - 4#16).toNat) ∧
  ∃ h, holdsWord s (vectorAt n) h

/-- What trap entry with a number and a return address leaves (R335): the return address and the old FLAG pushed on SSP, P = 1, E = 0, the
result flags kept, the request acknowledged, PC from the vector; every other register, every other byte and the rest as before. -/
def trapEffect (n : Nat) (retpc : Word) (s t : State) : Prop :=
  t.flag = { s.flag with p := true, e := false } ∧
  t.ssp = s.ssp - 4#16 ∧ sameRegsBut [.ssp, .pc] s t ∧
  holdsWord t (s.ssp - 2#16) retpc ∧ holdsWord t (s.ssp - 4#16) s.flag.toWord ∧
  holdsWord t (vectorAt n) t.pc ∧
  sameBytesBut [s.ssp - 2#16, s.ssp - 2#16 + 1#16, s.ssp - 4#16, s.ssp - 4#16 + 1#16] s t ∧
  (∀ k, k < 10 → t.pending.getLsbD k = (s.pending.getLsbD k && k != n)) ∧
  t.halted = s.halted ∧ t.lowerLimit = s.lowerLimit ∧ t.upperLimit = s.upperLimit ∧
  t.ioTrace = s.ioTrace ∧ t.ioAnswers = s.ioAnswers ∧ t.requests = s.requests ∧ t.free = s.free

/-- At this boundary no interrupt is taken: E = 0 or nothing is pending (R331). -/
def noInterrupt (s : State) : Prop := s.flag.e = false ∨ s.pending = 0

/-! ## The tables of the spec, as statements use them -/

/-- The column `cond` of R240. -/
def condTable (cc : Cond) (f : Flag) : Prop :=
  match cc with
  | .z => f.z = true
  | .c => f.c = true
  | .m => f.s = true
  | .o => f.v = true
  | .gt => f.z = false ∧ f.s = f.v
  | .ge => f.s = f.v
  | .le => f.z = true ∨ f.s ≠ f.v
  | .lt => f.s ≠ f.v
  | .nz => f.z = false
  | .nc => f.c = false
  | .nm => f.s = false
  | .no => f.v = false
  | .hi => f.z = false ∧ f.c = false
  | .ls => f.z = true ∨ f.c = true
  | .always => True

/-- The hex base of the row of R118 in which an operation with a value operand stands; its mode number is added to it (R113). -/
def opBase : EaOp → Nat
  | .ld => 0x08
  | .add => 0x18
  | .sub => 0x20
  | .cmp => 0x28
  | .and => 0x30
  | .or => 0x38
  | .xor => 0x40
  | .adds => 0x48
  | .mul => 0x50
  | .div => 0x58
  | .mod => 0x60
  | .mull => 0x68
  | .divl => 0x70
  | .shla => 0x80
  | .shll => 0x88
  | .shra => 0x90
  | .shrl => 0x98

/-- The first word with the hex numeral `OP Rd Rx` (R111). -/
def mapWord (op : Nat) (rd rx : BitVec 4) : Word := BitVec.ofNat 16 (op * 256 + rd.toNat * 16 + rx.toNat)

/-- The blank cells of the opcode map, as R119 lists them. -/
def blankCells : List Nat :=
  List.range' 0x01 7 ++ [0x12, 0x15] ++ List.range' 0x78 8 ++ List.range' 0xA2 4 ++ [0xA7] ++ List.range' 0xAA 4 ++ [0xAF] ++
    List.range' 0xB1 5 ++ List.range' 0xB9 5 ++ List.range' 0xC1 3 ++ List.range' 0xC5 3 ++ List.range' 0xC8 8 ++
    List.range' 0xD1 3 ++ List.range' 0xD5 3 ++ List.range' 0xD8 8 ++ List.range' 0xE1 3 ++ List.range' 0xE5 3 ++
    List.range' 0xE8 8 ++ List.range' 0xF1 7 ++ List.range' 0xF8 7

/-- The ports of R78 drawn with 00H in the even byte, less the three of R79. -/
def byteRegisterPorts : List Nat :=
  [0x08, 0x0A, 0x0C, 0x0E, 0x10, 0x18, 0x1A, 0x1C, 0x1E, 0x20, 0x22, 0x24, 0x26, 0xFC, 0xFE]

end Sys2Proof.Machine
end

