-- ==== Sys2Proof/Certificates/Slice0/Obligations.lean ====
section
/-! DEFINITION. The statements for the provers. Each docstring says what is stated and the rules it rests on; "log n" is
notes/assumptions/n.md. -/

open Sys2Proof Sys2Proof.Machine

/-- For every instruction, with every operand at every value, and whatever bytes follow it, decoding the bytes of its encoding gives the
instruction back and leaves the bytes that follow. Rests on: 30_encoding.md R111, R113, R114, R118 (D1, D2). -/
def Obligations.DecodeOfEncodeIsTheInstruction : Prop :=
  ∀ (i : Instr) (rest : List Byte), decode (bytesOfWords (encode i) ++ rest) = .instr i rest

/-- Whenever some bytes decode to an instruction with some bytes left over, the bytes are exactly the encoding of that instruction followed by
those left over: no two words mean the same instruction, and no bit of an encoding is ignored. Rests on: 30_encoding.md R120, R121, R127
(D27). -/
def Obligations.DecodedBytesAreTheEncoding : Prop :=
  ∀ (bytes : List Byte) (i : Instr) (rest : List Byte), decode bytes = .instr i rest → bytes = bytesOfWords (encode i) ++ rest

/-- The encoding of every instruction has a first word and at most one word after it; it has a second word exactly when its first word is in one
of the rows 00001b to 10111b, which hold the instructions with an operand form, and its mode number OP[2:0] is 0 (Direct), 1 (Indexed) or 2
(Immediate). Rests on: 30_encoding.md R110, R115. -/
def Obligations.OneOrTwoWordsByMode : Prop :=
  ∀ i : Instr, ∃ (w1 : Word) (rest : List Word), encode i = w1 :: rest ∧ rest.length ≤ 1 ∧
    (rest.length = 1 ↔ (1 ≤ (w1.extractLsb' 11 5).toNat ∧ (w1.extractLsb' 11 5).toNat ≤ 23 ∧ (w1.extractLsb' 8 3).toNat ≤ 2))

/-- Every instruction, with every operand, is encoded with the OP byte of its cell of R118, which is the base of its operation plus its mode
number, with Rd (for a jump the code of its condition, O6) and then Rx, Rs, D4, I4 or zero in the two fields of four bits below it, and with
Dsp or Imm as second word in the modes Direct, Indexed and Immediate. A first word is undefined exactly when its OP byte is one of the 93
blank cells that R119 lists, whatever its other eight bits. The places of the fields and that exactly these words are undefined are
decisions the spec marks as its own (D2, D27). Rests on: 30_encoding.md R111 (D2), R113, R114, R118, R119 (D27), R121. -/
def Obligations.BlankCellsAreTheUndefinedWords : Prop :=
  (∀ (o : EaOp) (cc : Cond) (rd rx f : BitVec 4) (w2 : Word),
    (encode (.ofEa o rd (.direct w2)) = [mapWord (opBase o) rd 0, w2] ∧
      encode (.ofEa o rd (.indexed w2 rx)) = [mapWord (opBase o + 1) rd rx, w2] ∧
      encode (.ofEa o rd (.immediate w2)) = [mapWord (opBase o + 2) rd 0, w2] ∧
      encode (.ofEa o rd (.fpRel f)) = [mapWord (opBase o + 3) rd f] ∧
      encode (.ofEa o rd (.register rx)) = [mapWord (opBase o + 4) rd rx] ∧
      encode (.ofEa o rd (.imm4 f)) = [mapWord (opBase o + 5) rd f] ∧
      encode (.ofEa o rd (.indirect rx)) = [mapWord (opBase o + 6) rd rx] ∧
      encode (.ofEa o rd (.byteIndirect rx)) = [mapWord (opBase o + 7) rd rx]) ∧
    (encode (.ofSt rd (.direct w2)) = [mapWord 0x10 rd 0, w2] ∧ encode (.ofSt rd (.indexed w2 rx)) = [mapWord 0x11 rd rx, w2] ∧
      encode (.ofSt rd (.fpRel f)) = [mapWord 0x13 rd f] ∧ encode (.ofSt rd (.indirect rx)) = [mapWord 0x16 rd rx] ∧
      encode (.ofSt rd (.byteIndirect rx)) = [mapWord 0x17 rd rx] ∧ encode (.ldFlag rd) = [mapWord 0x14 rd 0]) ∧
    (encode (.ofJump cc (.direct w2)) = [mapWord 0xA0 cc.code 0, w2] ∧
      encode (.ofJump cc (.indexed w2 rx)) = [mapWord 0xA1 cc.code rx, w2] ∧
      encode (.ofJump cc (.indirect rx)) = [mapWord 0xA6 cc.code rx]) ∧
    (encode (.ofCall (.direct w2)) = [mapWord 0xA8 0 0, w2] ∧ encode (.ofCall (.indexed w2 rx)) = [mapWord 0xA9 0 rx, w2] ∧
      encode (.ofCall (.indirect rx)) = [mapWord 0xAE 0 rx]) ∧
    (encode (.ofIn rd (.direct w2)) = [mapWord 0xB0 rd 0, w2] ∧ encode (.ofIn rd (.indirect rx)) = [mapWord 0xB6 rd rx] ∧
      encode (.ofIn rd (.byteIndirect rx)) = [mapWord 0xB7 rd rx]) ∧
    (encode (.ofOut rd (.direct w2)) = [mapWord 0xB8 rd 0, w2] ∧ encode (.ofOut rd (.indirect rx)) = [mapWord 0xBE rd rx] ∧
      encode (.ofOut rd (.byteIndirect rx)) = [mapWord 0xBF rd rx]) ∧
    encode (.push rd) = [mapWord 0xC0 rd 0] ∧ encode (.pop rd) = [mapWord 0xC4 rd 0]) ∧
  (encode .no = [0x0000#16] ∧ encode .ret = [0xD000#16] ∧ encode .reti = [0xD400#16] ∧ encode .ei = [0xE000#16] ∧
    encode .di = [0xE400#16] ∧ encode .svc = [0xF000#16] ∧ encode .halt = [0xFF00#16]) ∧
  blankCells.length = 93 ∧ ∀ w1 : Word, decodeFirst w1 = .undefined ↔ (w1.extractLsb' 8 8).toNat ∈ blankCells

/-- Eight words, one or more of several families, decode to the instructions they stand for. Rests on: 30_encoding.md R111, R114, R118, R121. -/
def Obligations.SampleWordsDecode : Prop :=
  decodeTableWord 32 0x12340810 = some (.ldDir 1 0x1234) ∧ decodeTableWord 16 0x0B1E = some (.ldFp 1 0xE) ∧
    decodeTableWord 16 0x1C01 = some (.addReg 0 1) ∧ decodeTableWord 32 0x0200A0E0 = some (.jlsDir 0x0200) ∧
    decodeTableWord 16 0xC4D0 = some (.pop 13) ∧ decodeTableWord 16 0xBF12 = some (.outByte 1 2) ∧
    decodeTableWord 16 0xFF00 = some .halt ∧ decodeTableWord 16 0xFFFF = none

/-- For every condition of the table of R240, every Rx field and every following word, the first word with OP A1h or A6h (or A0h with Rx 0), the
Rd field holding the condition code of the table and the Rx field is the jump with that condition in mode Indexed, Register Indirect or
Direct; the first words of the row with Rd = Dh are refused. In every state each of those jumps goes to its target if the condition of the
column cond of the table holds of the flags, and otherwise leaves PC. The refusal of Dh is the spec's own decision (D27; log 29), and that
Rx = Fh is PC is the model's choice (log 9). Rests on: 45_jump_call.md R240, R242, 30_encoding.md R121 (D27). -/
def Obligations.JumpRowAndConditionCodes : Prop :=
  (∀ p ∈ [(0x0, Cond.z), (0x1, .c), (0x2, .m), (0x3, .o), (0x4, .gt), (0x5, .ge), (0x6, .le), (0x7, .lt), (0x8, .nz), (0x9, .nc),
      (0xA, .nm), (0xB, .no), (0xC, .hi), (0xE, .ls), (0xF, .always)], ∀ (rx : RegNum) (w2 : Word),
      (∃ f, decodeFirst (BitVec.ofNat 16 (0xA000 + 16 * p.1)) = .two f ∧ f w2 = .ofJump p.2 (.direct w2)) ∧
      (∃ f, decodeFirst (BitVec.ofNat 16 (0xA100 + 16 * p.1 + rx.toNat)) = .two f ∧ f w2 = .ofJump p.2 (.indexed w2 rx)) ∧
      decodeFirst (BitVec.ofNat 16 (0xA600 + 16 * p.1 + rx.toNat)) = .one (.ofJump p.2 (.indirect rx))) ∧
  (∀ rx : RegNum, decodeFirst (BitVec.ofNat 16 (0xA0D0 + rx.toNat)) = .reserved .jumpConditionD ∧
      decodeFirst (BitVec.ofNat 16 (0xA1D0 + rx.toNat)) = .reserved .jumpConditionD ∧
      decodeFirst (BitVec.ofNat 16 (0xA6D0 + rx.toNat)) = .reserved .jumpConditionD) ∧
  ∀ (cc : Cond) (e : JumpEa) (s : State),
    (condTable cc s.flag → exec (.ofJump cc e) s = .next (s.withPc (jumpTarget s e))) ∧
    (¬ condTable cc s.flag → exec (.ofJump cc e) s = .next s)

/-- The 16-bit value of FLAG has E at bit 7, P at bit 6, V at bit 3, C at bit 2, S at bit 1 and Z at bit 0, and its bits 15 to 8, 5 and 4 are
zero. States: R28. -/
def Obligations.FlagWordLayout : Prop :=
  ∀ f : Flag, f.toWord.getLsbD 7 = f.e ∧ f.toWord.getLsbD 6 = f.p ∧ f.toWord.getLsbD 3 = f.v ∧ f.toWord.getLsbD 2 = f.c ∧
    f.toWord.getLsbD 1 = f.s ∧ f.toWord.getLsbD 0 = f.z ∧ f.toWord.getLsbD 5 = false ∧ f.toWord.getLsbD 4 = false ∧
    ∀ k, 8 ≤ k → f.toWord.getLsbD k = false

/-- A read of SP reads SSP when P = 1 and USP when P = 0, and a write of SP writes that one and leaves the other. States: R22. -/
def Obligations.StackPointerSelectedByMode : Prop :=
  ∀ (s : State) (w : Word),
    (s.flag.p = true → s.x 13#4 = s.ssp ∧ (s.setX 13#4 w).ssp = w ∧ (s.setX 13#4 w).usp = s.usp) ∧
    (s.flag.p = false → s.x 13#4 = s.usp ∧ (s.setX 13#4 w).usp = w ∧ (s.setX 13#4 w).ssp = s.ssp)

/-- In both modes numbers 0 to 12 name G0 to G12, Dh names the stack pointer in use (SSP in privileged mode, USP in user mode), Eh names USP and
Fh names PC, and a read gives the content of the register named. After a write to the register that one number names, every number that
names the same register reads the value written, every other number reads as before, two numbers below 13 name the same register only when
they are equal, and SSP cannot be named in user mode. That number Fh names PC and can be read and written is the alternative
next_instruction of PC_AS_OPERAND, the model's choice (log 9). Rests on: 10_state.md R20, R22, R23, R27 (D5). -/
def Obligations.RegisterReadAfterWrite : Prop :=
  ∀ (s : State) (r r' : RegNum) (w : Word),
    (s.reg r' = s.reg r → (s.setX r w).x r' = w) ∧ (s.reg r' ≠ s.reg r → (s.setX r w).x r' = s.x r') ∧
    (r.toNat < 13 → r'.toNat < 13 → s.reg r = s.reg r' → r = r') ∧ (s.flag.p = false → s.reg r ≠ .ssp) ∧
    onlyRegs [s.reg r] s (s.setX r w) ∧
    (∀ h : r.toNat < 13, s.reg r = .g ⟨r.toNat, h⟩ ∧ s.x r = s.g[r.toNat]) ∧
    (s.reg 13#4 = if s.flag.p then .ssp else .usp) ∧ (s.x 13#4 = if s.flag.p then s.ssp else s.usp) ∧
    s.reg 14#4 = .usp ∧ s.x 14#4 = s.usp ∧ s.reg 15#4 = .pc ∧ s.x 15#4 = s.pc

/-- The Immediate operand is the second word of the instruction; the 4-bit immediate operand is the 16-bit word whose signed value, from -8 to
7, is that of the low 4-bit field of the only word; both are the same whatever the memory holds. States: R155. -/
def Obligations.ImmediateOperands : Prop :=
  ∀ (s : State) (w : Word) (i4 : BitVec 4) (m : Memory) (o : EaOp) (rd : RegNum),
    operand (s.withMem m) (.immediate w) = .ok w ∧ (∃ w1, encode (.ofEa o rd (.immediate w)) = [w1, w]) ∧
    (∃ v, operand (s.withMem m) (.imm4 i4) = .ok v ∧ v.toInt = i4.toInt ∧ -8 ≤ v.toInt ∧ v.toInt ≤ 7) ∧
    ∃ w1, encode (.ofEa o rd (.imm4 i4)) = [w1] ∧ w1.extractLsb' 0 4 = i4

/-- Direct, Indexed, FP Relative and Register Indirect operands are the word that memory holds at Dsp, at Dsp plus Rx modulo 65536, at FP plus
twice the signed D4, and at the content of Rx, when it may be read; the Byte Register Indirect operand is the byte at the content of Rx with
zeros above; the Register operand is the register. The byte order and the zero extension are decisions of the spec (D1, D17). Rests on:
40_operands.md R152, R153, R154, R156, R157, R158 (D17), 20_memory.md R63 (D1). -/
def Obligations.MemoryOperandsReadTheirAddress : Prop :=
  ∀ (s : State) (dsp w : Word) (rx : RegNum) (d4 : BitVec 4) (b : Byte),
    (readableWord s .read dsp w → operand s (.direct dsp) = .ok w) ∧
    (readableWord s .read (BitVec.ofNat 16 (dsp.toNat + (s.x rx).toNat)) w → operand s (.indexed dsp rx) = .ok w) ∧
    (readableWord s .read (BitVec.ofInt 16 ((s.x 12#4).toInt + 2 * d4.toInt)) w → operand s (.fpRel d4) = .ok w) ∧
    operand s (.register rx) = .ok (s.x rx) ∧
    (readableWord s .read (s.x rx) w → operand s (.indirect rx) = .ok w) ∧
    (readableByte s (s.x rx) b → operand s (.byteIndirect rx) = .ok (BitVec.ofNat 16 b.toNat))

/-- The store target is Dsp, Dsp plus Rx, twice the signed D4 plus G12, or the content of Rx, two bytes wide, and in mode 7 the content of Rx,
one byte wide, where Dsp is the second word and Rx and D4 are the low 4-bit field of the first; ST has no other mode: no word of its row in
the columns 2, 4 and 5 is an ST. States: R159. -/
def Obligations.StoreTargetsOfEachMode : Prop :=
  (∀ (s : State) (dsp : Word) (rx : RegNum) (d4 : BitVec 4),
    storeTarget s (.direct dsp) = (dsp, 2) ∧ storeTarget s (.indexed dsp rx) = (BitVec.ofNat 16 (dsp.toNat + (s.x rx).toNat), 2) ∧
    storeTarget s (.fpRel d4) = (BitVec.ofNat 16 ((BitVec.ofInt 16 (2 * d4.toInt)).toNat + (s.x 12#4).toNat), 2) ∧
    storeTarget s (.indirect rx) = (s.x rx, 2) ∧ storeTarget s (.byteIndirect rx) = (s.x rx, 1)) ∧
  (∀ (rd rx : RegNum) (dsp : Word) (d4 : BitVec 4),
    (∃ w1, encode (.ofSt rd (.direct dsp)) = [w1, dsp]) ∧
    (∃ w1, encode (.ofSt rd (.indexed dsp rx)) = [w1, dsp] ∧ w1.extractLsb' 0 4 = rx) ∧
    (∃ w1, encode (.ofSt rd (.fpRel d4)) = [w1] ∧ w1.extractLsb' 0 4 = d4) ∧
    (∃ w1, encode (.ofSt rd (.indirect rx)) = [w1] ∧ w1.extractLsb' 0 4 = rx) ∧
    (∃ w1, encode (.ofSt rd (.byteIndirect rx)) = [w1] ∧ w1.extractLsb' 0 4 = rx)) ∧
  ∀ (rd : RegNum) (e : MemEa) (w1 : Word) (rest : List Word), encode (.ofSt rd e) = w1 :: rest →
    (w1.extractLsb' 8 8).toNat ≠ 0x12 ∧ (w1.extractLsb' 8 8).toNat ≠ 0x14 ∧ (w1.extractLsb' 8 8).toNat ≠ 0x15

/-- For every even displacement d from -16 to 14, the form the assembler picks for d,FP is FP Relative with a field whose address is FP plus d;
for every other d from -32768 to 65535 it is Indexed with Rx = Ch, whose address is also FP plus d. For every n from -32768 to 65535 the
form it picks for an immediate #n has the operand n modulo 65536, and it is the 4-bit immediate exactly for n from -8 to 7. Rests on:
30_encoding.md R116, R124. -/
def Obligations.FpDisplacementDoublesBack : Prop :=
  (∀ (s : State) (d : Int), -32768 ≤ d → d ≤ 65535 →
    (d % 2 = 0 ∧ -16 ≤ d ∧ d ≤ 14 → ∃ d4, fpForm d = .fpRel d4 ∧ s.fpAddress d4 = BitVec.ofInt 16 ((s.x 12#4).toInt + d)) ∧
    (¬ (d % 2 = 0 ∧ -16 ≤ d ∧ d ≤ 14) →
      ∃ dsp, fpForm d = .indexed dsp 12#4 ∧ dsp + s.x 12#4 = BitVec.ofInt 16 ((s.x 12#4).toInt + d))) ∧
  ∀ (s : State) (n : Int), -32768 ≤ n → n ≤ 65535 →
    operand s (immForm n) = .ok (BitVec.ofInt 16 n) ∧ ((∃ i4, immForm n = .imm4 i4) ↔ (-8 ≤ n ∧ n ≤ 7))

/-- A word write at an allowed even address succeeds; afterwards the byte at the address is bits 15..8 of the word and the next byte bits 7..0,
the word reads back, and every other byte and all the rest of the state are as before. Big-endian order is a decision of the spec (D1).
Rests on: 20_memory.md R63 (D1), R65, R67. -/
def Obligations.WordWriteIsTwoBytesBigEndian : Prop :=
  ∀ (s : State) (a w : Word), writableWord s a →
    ∃ t, s.writeWord a w = .ok t ∧ t.byteAt a.toNat = some (BitVec.ofNat 8 (w.toNat / 256)) ∧
      t.byteAt (a.toNat + 1) = some (BitVec.ofNat 8 (w.toNat % 256)) ∧ t.mem.readWord a = some w ∧
      onlyRegsBytes [] [a, a + 1#16] s t

/-- A byte write at an allowed address, even or odd, succeeds and changes that byte only; where the aligned word around it held a value, that
word afterwards has the byte in its high half at an even address and in its low half at an odd one, and its other half as before. Rests on:
20_memory.md R65, R69 (D17). -/
def Obligations.ByteWriteKeepsTheOtherByte : Prop :=
  ∀ (s : State) (a : Word) (b : Byte), writableByte s a →
    ∃ t, s.writeByte a b = .ok t ∧ t.byteAt a.toNat = some b ∧ onlyRegsBytes [] [a] s t ∧
      ∀ w, s.mem.readWord (a &&& 0xFFFE#16) = some w →
        t.mem.readWord (a &&& 0xFFFE#16) =
          some (if a.toNat % 2 = 0 then BitVec.ofNat 16 (b.toNat * 256 + w.toNat % 256)
            else BitVec.ofNat 16 (w.toNat / 256 * 256 + b.toNat))

/-- In every state and for every kind of access: at an odd address a word access raises AddressError; at an even address that the protection
rejects it raises MemoryViolation, and the protection rejects nothing in privileged mode; at an even address that is not rejected it is
refused in E000h to EFFFh, and a write is refused in F000h to FFDFh. These treatments are decisions of the spec (D18, D32, D33). Rests on:
20_memory.md R66, R67, R68 (D18), R72 (D33), R75 (D32). -/
def Obligations.WordAccessChecks : Prop :=
  ∀ (s : State) (kind : AccessKind) (a w : Word),
    (a.toNat % 2 = 1 → s.readWord kind a = .raised .addressError ∧ s.writeWord a w = .raised .addressError) ∧
    (a.toNat % 2 = 0 → s.rejects kind a = true → s.readWord kind a = .raised .memoryViolation) ∧
    (a.toNat % 2 = 0 → s.rejects .write a = true → s.writeWord a w = .raised .memoryViolation) ∧
    (s.flag.p = true → s.rejects kind a = false) ∧
    (a.toNat % 2 = 0 → s.rejects kind a = false → 0xE000 ≤ a.toNat → a.toNat < 0xF000 →
      s.readWord kind a = .refused .reservedRegion) ∧
    (a.toNat % 2 = 0 → s.rejects .write a = false → 0xE000 ≤ a.toNat → a.toNat < 0xF000 →
      s.writeWord a w = .refused .reservedRegion) ∧
    (a.toNat % 2 = 0 → s.rejects .write a = false → 0xF000 ≤ a.toNat → a.toNat < 0xFFE0 →
      s.writeWord a w = .refused .romWrite)

/-- NO answers the state it is run in, in every state. Rests on: 41_no_load_store.md R170. -/
def Obligations.NoDoesNothing : Prop :=
  ∀ s : State, exec .no s = .next s

/-- For LD in each of its eight modes, when the operand is found, LD completes, Rd holds the operand, and no other register, no flag, no byte of
memory and nothing else changes (Rd = Fh is PC, log 9). Rests on: 41_no_load_store.md R171, 10_state.md R23, R27. -/
def Obligations.LoadWritesRdOnly : Prop :=
  ∀ (rd : RegNum) (e : Ea) (s : State) (v : Word), operand s e = .ok v →
    ∃ t, exec (.ofEa .ld rd e) s = .next t ∧ t.x rd = v ∧ onlyRegs [s.reg rd] s t

/-- In either mode LD Rd,FLAG completes; Rd then is 128 E + 64 P + 8 V + 4 C + 2 S + Z, and nothing else changes. Rests on: 41_no_load_store.md
R172, 10_state.md R28, R29 (D39). -/
def Obligations.LoadFlagGivesTheFlagWord : Prop :=
  ∀ (rd : RegNum) (s : State),
    ∃ t, exec (.ldFlag rd) s = .next t ∧ onlyRegs [s.reg rd] s t ∧
      (t.x rd).toNat = 128 * s.flag.e.toNat + 64 * s.flag.p.toNat + 8 * s.flag.v.toNat + 4 * s.flag.c.toNat +
        2 * s.flag.s.toNat + s.flag.z.toNat

/-- For ST in each of its five modes: in the four word modes, when a word may be written at the store target, ST completes, that word is the
content of Rd, and no other byte, no register and no flag changes; in mode 7, when a byte may be written there, ST completes, that byte is
the low byte of Rd, and nothing else changes. Rests on: 41_no_load_store.md R173, 40_operands.md R159, 20_memory.md R67, R69 (D1, D17). -/
def Obligations.StoreWritesItsTargetOnly : Prop :=
  ∀ (rd : RegNum) (e : MemEa) (s : State),
    ((storeTarget s e).2 = 2 → writableWord s (storeTarget s e).1 →
      ∃ t, exec (.ofSt rd e) s = .next t ∧ holdsWord t (storeTarget s e).1 (s.x rd) ∧
        onlyRegsBytes [] [(storeTarget s e).1, (storeTarget s e).1 + 1#16] s t) ∧
    ((storeTarget s e).2 = 1 → writableByte s (storeTarget s e).1 →
      ∃ t, exec (.ofSt rd e) s = .next t ∧ t.byteAt (storeTarget s e).1.toNat = some (BitVec.ofNat 8 ((s.x rd).toNat % 256)) ∧
        onlyRegsBytes [] [(storeTarget s e).1] s t)

/-- For ADD in each of its eight modes, when the operand is found, ADD completes: Rd is the sum modulo 65536, C says that the unsigned sum is
65536 or more, V that the signed sum does not fit in 16 bits, S that the result is negative, Z that it is zero; nothing else changes. The
formulas of C and V are a decision of the spec (D6). Rests on: 42_arithmetic_logic.md R180 (D6), R181. -/
def Obligations.AddResultAndFlags : Prop :=
  ∀ (rd : RegNum) (e : Ea) (s : State) (b : Word), operand s e = .ok b →
    ∃ t, exec (.ofEa .add rd e) s = .next t ∧ (t.x rd).toNat = ((s.x rd).toNat + b.toNat) % 65536 ∧
      resultFlags t (¬ fits16 ((s.x rd).toInt + b.toInt)) (65536 ≤ (s.x rd).toNat + b.toNat) ((t.x rd).toInt < 0) ((t.x rd).toNat = 0) ∧
      onlyRegsVcsz [s.reg rd] s t

/-- For SUB in each of its eight modes, when the operand is found, SUB completes: Rd is the difference modulo 65536, C is the borrow, V says
that the signed difference does not fit in 16 bits, S that the result is negative, Z that it is zero; nothing else changes (D7). Rests on:
42_arithmetic_logic.md R180 (D7), R182. -/
def Obligations.SubResultAndFlags : Prop :=
  ∀ (rd : RegNum) (e : Ea) (s : State) (b : Word), operand s e = .ok b →
    ∃ t, exec (.ofEa .sub rd e) s = .next t ∧ t.x rd = BitVec.ofInt 16 ((s.x rd).toInt - b.toInt) ∧
      resultFlags t (¬ fits16 ((s.x rd).toInt - b.toInt)) ((s.x rd).toNat < b.toNat) ((t.x rd).toInt < 0) ((t.x rd).toNat = 0) ∧
      onlyRegsVcsz [s.reg rd] s t

/-- For CMP in each of its eight modes, when the operand is found, CMP completes: C is the borrow, V says that the signed difference does not
fit in 16 bits, S is bit 15 of the difference, Z says that the two are equal; no register and nothing else changes (D7). Rests on:
42_arithmetic_logic.md R180 (D7), R183. -/
def Obligations.CmpSetsFlagsOnly : Prop :=
  ∀ (rd : RegNum) (e : Ea) (s : State) (b : Word), operand s e = .ok b →
    ∃ t, exec (.ofEa .cmp rd e) s = .next t ∧
      resultFlags t (¬ fits16 ((s.x rd).toInt - b.toInt)) ((s.x rd).toNat < b.toNat)
        ((BitVec.ofInt 16 ((s.x rd).toInt - b.toInt)).toInt < 0) (s.x rd = b) ∧
      onlyRegsVcsz [] s t

/-- For AND, OR and XOR in each of their eight modes, when the operand is found, the instruction completes: every bit of Rd is the conjunction,
disjunction or exclusive disjunction of the two bits; S says that the result is negative, Z that it is zero, C = V = 0; nothing else
changes. C = V = 0 is a decision of the spec (D8). Rests on: 42_arithmetic_logic.md R180 (D8), R184, R185, R186. -/
def Obligations.LogicResultsAndFlags : Prop :=
  ∀ (rd : RegNum) (e : Ea) (s : State) (b : Word), operand s e = .ok b →
    (∃ t, exec (.ofEa .and rd e) s = .next t ∧ (∀ k, (t.x rd).getLsbD k = ((s.x rd).getLsbD k && b.getLsbD k)) ∧
      resultFlags t False False ((t.x rd).toInt < 0) ((t.x rd).toNat = 0) ∧ onlyRegsVcsz [s.reg rd] s t) ∧
    (∃ t, exec (.ofEa .or rd e) s = .next t ∧ (∀ k, (t.x rd).getLsbD k = ((s.x rd).getLsbD k || b.getLsbD k)) ∧
      resultFlags t False False ((t.x rd).toInt < 0) ((t.x rd).toNat = 0) ∧ onlyRegsVcsz [s.reg rd] s t) ∧
    (∃ t, exec (.ofEa .xor rd e) s = .next t ∧ (∀ k, (t.x rd).getLsbD k = ((s.x rd).getLsbD k ^^ b.getLsbD k)) ∧
      resultFlags t False False ((t.x rd).toInt < 0) ((t.x rd).toNat = 0) ∧ onlyRegsVcsz [s.reg rd] s t)

/-- For ADDS in each of its eight modes, when the operand is found, ADDS completes: Rd is Rd plus twice the operand modulo 65536; with d the
doubled operand modulo 65536, C says that Rd + d is 65536 or more, V that their signed sum does not fit in 16 bits, S and Z are those of the
result; nothing else changes. The flags are a decision of the spec (D9). Rests on: 42_arithmetic_logic.md R187 (D9). -/
def Obligations.AddsAddsTheDoubledOperand : Prop :=
  ∀ (rd : RegNum) (e : Ea) (s : State) (b d : Word), operand s e = .ok b → d.toNat = 2 * b.toNat % 65536 →
    ∃ t, exec (.ofEa .adds rd e) s = .next t ∧ (t.x rd).toNat = ((s.x rd).toNat + 2 * b.toNat) % 65536 ∧
      resultFlags t (¬ fits16 ((s.x rd).toInt + d.toInt)) (65536 ≤ (s.x rd).toNat + d.toNat) ((t.x rd).toInt < 0) ((t.x rd).toNat = 0) ∧
      onlyRegsVcsz [s.reg rd] s t

/-- After CMP or SUB of Rd with an operand that is found, the condition of JGT, JGE, JZ, JNZ, JLE, JLT holds exactly when the values before
satisfy >, >=, =, !=, <=, < read as signed numbers, and that of JHI, JNC, JLS, JC exactly when they satisfy >, >=, <=, < read as unsigned
numbers. Rests on: 45_jump_call.md R241, R240, 42_arithmetic_logic.md R180 (D7). -/
def Obligations.CompareThenJumpDecidesTheOrder : Prop :=
  ∀ (o : EaOp) (rd : RegNum) (e : Ea) (s t : State) (b : Word), (o = .cmp ∨ o = .sub) → operand s e = .ok b →
    exec (.ofEa o rd e) s = .next t →
    (condHolds .gt t.flag = true ↔ b.toInt < (s.x rd).toInt) ∧ (condHolds .ge t.flag = true ↔ b.toInt ≤ (s.x rd).toInt) ∧
    (condHolds .z t.flag = true ↔ s.x rd = b) ∧ (condHolds .nz t.flag = true ↔ s.x rd ≠ b) ∧
    (condHolds .le t.flag = true ↔ (s.x rd).toInt ≤ b.toInt) ∧ (condHolds .lt t.flag = true ↔ (s.x rd).toInt < b.toInt) ∧
    (condHolds .hi t.flag = true ↔ b.toNat < (s.x rd).toNat) ∧ (condHolds .nc t.flag = true ↔ b.toNat ≤ (s.x rd).toNat) ∧
    (condHolds .ls t.flag = true ↔ (s.x rd).toNat ≤ b.toNat) ∧ (condHolds .c t.flag = true ↔ (s.x rd).toNat < b.toNat)

/-- For MUL in each of its eight modes, when the operand is found, MUL completes: Rd is the unsigned product modulo 65536 and also the signed
product modulo 65536; S and Z are those of Rd and C = V = 0 (D10); nothing else changes. Rests on: 43_multiply_divide.md R200 (D10), R203. -/
def Obligations.MulGivesTheLowWord : Prop :=
  ∀ (rd : RegNum) (e : Ea) (s : State) (b : Word), operand s e = .ok b →
    ∃ t, exec (.ofEa .mul rd e) s = .next t ∧ (t.x rd).toNat = (s.x rd).toNat * b.toNat % 65536 ∧
      t.x rd = BitVec.ofInt 16 ((s.x rd).toInt * b.toInt) ∧
      resultFlags t False False ((t.x rd).toInt < 0) ((t.x rd).toNat = 0) ∧ onlyRegsVcsz [s.reg rd] s t

/-- For DIV and MOD in each of their eight modes, when the operand is found and is not zero, the instruction completes: Rd is the unsigned
quotient, or the unsigned remainder; S and Z are those of Rd and C = V = 0; nothing else changes. Unsigned division and the flags are
decisions of the spec (D11, D10). Rests on: 43_multiply_divide.md R200 (D10, D11), R205, R206. -/
def Obligations.DivAndModGiveQuotientAndRemainder : Prop :=
  ∀ (rd : RegNum) (e : Ea) (s : State) (b : Word), operand s e = .ok b → b.toNat ≠ 0 →
    (∃ t, exec (.ofEa .div rd e) s = .next t ∧ (t.x rd).toNat = (s.x rd).toNat / b.toNat ∧
      resultFlags t False False ((t.x rd).toInt < 0) ((t.x rd).toNat = 0) ∧ onlyRegsVcsz [s.reg rd] s t) ∧
    (∃ t, exec (.ofEa .mod rd e) s = .next t ∧ (t.x rd).toNat = (s.x rd).toNat % b.toNat ∧
      resultFlags t False False ((t.x rd).toInt < 0) ((t.x rd).toNat = 0) ∧ onlyRegsVcsz [s.reg rd] s t)

/-- For MULL in each of its eight modes: with an even Rd, when the operand is found, MULL completes and Rd+1 as the high word and Rd as the low
word together are the unsigned product of the old Rd and the operand; S and Z are those of Rd and C = V = 0; nothing else changes; with an
odd Rd it is refused. Unsigned multiplication, the order of the pair and the refusal are decisions of the spec (D12, D13, D10). Rests on:
43_multiply_divide.md R200 (D10, D12, D13), R201, R204. -/
def Obligations.MullGivesTheWholeProduct : Prop :=
  ∀ (rd : RegNum) (e : Ea) (s : State),
    (rd.toNat % 2 = 0 → ∀ b, operand s e = .ok b →
      ∃ t, exec (.ofEa .mull rd e) s = .next t ∧
        (t.x (rd + 1#4)).toNat * 65536 + (t.x rd).toNat = (s.x rd).toNat * b.toNat ∧
        resultFlags t False False ((t.x rd).toInt < 0) ((t.x rd).toNat = 0) ∧ onlyRegsVcsz [s.reg rd, s.reg (rd + 1#4)] s t) ∧
    (rd.toNat % 2 = 1 → exec (.ofEa .mull rd e) s = .refused .oddPair)

/-- For DIVL in each of its eight modes: with an even Rd, when the operand is found and the high word Rd+1 is less than it, DIVL completes, Rd
is the unsigned quotient of the 32-bit pair by the operand and Rd+1 the remainder; S and Z are those of Rd and C = V = 0; nothing else
changes; with an odd Rd it is refused. These are decisions of the spec (D11, D13, D10). Rests on: 43_multiply_divide.md R200 (D10, D11,
D13), R201, R207. -/
def Obligations.DivlGivesQuotientAndRemainder : Prop :=
  ∀ (rd : RegNum) (e : Ea) (s : State),
    (rd.toNat % 2 = 0 → ∀ b, operand s e = .ok b → (s.x (rd + 1#4)).toNat < b.toNat →
      ∃ t, exec (.ofEa .divl rd e) s = .next t ∧
        (t.x rd).toNat = ((s.x (rd + 1#4)).toNat * 65536 + (s.x rd).toNat) / b.toNat ∧
        (t.x (rd + 1#4)).toNat = ((s.x (rd + 1#4)).toNat * 65536 + (s.x rd).toNat) % b.toNat ∧
        resultFlags t False False ((t.x rd).toInt < 0) ((t.x rd).toNat = 0) ∧ onlyRegsVcsz [s.reg rd, s.reg (rd + 1#4)] s t) ∧
    (rd.toNat % 2 = 1 → exec (.ofEa .divl rd e) s = .refused .oddPair)

/-- With an even Rd, when the operand is found, is not zero and is at most the high word Rd+1, DIVL completes: no trap is taken, and only Rd,
Rd+1 and the four result flags change, whose values are free (the model draws them; log 12), with the counter of free values. Rests on:
43_multiply_divide.md R207 (D14), 93_implementation_defined.md U7. -/
def Obligations.DivlWithoutRoomStillCompletes : Prop :=
  ∀ (rd : RegNum) (e : Ea) (s : State) (b : Word), rd.toNat % 2 = 0 → operand s e = .ok b → b.toNat ≠ 0 →
    b.toNat ≤ (s.x (rd + 1#4)).toNat →
    ∃ t, exec (.ofEa .divl rd e) s = .next t ∧ sameRegsBut [s.reg rd, s.reg (rd + 1#4)] s t ∧ sameMode s t ∧ sameBytes s t ∧
      samePlatform s t

/-- When the operand of DIV, MOD or DIVL (with an even Rd) is found and is zero and trap entry can be done, the instruction takes the trap 12
with the address of the next instruction as return address; Rd, Rd+1, V, C, S and Z keep their values (D40, D21, D23). Rests on:
43_multiply_divide.md R202 (D40), 60_exceptions.md R321 (D23), R324, R335 (D21). -/
def Obligations.ZeroDivideTraps : Prop :=
  ∀ (o : EaOp) (rd : RegNum) (e : Ea) (s : State), (o = .div ∨ o = .mod ∨ (o = .divl ∧ rd.toNat % 2 = 0)) →
    operand s e = .ok 0#16 → trapReady 12 s → ∃ t, exec (.ofEa o rd e) s = .next t ∧ trapEffect 12 s.pc s t

/-- For each shift in each of its eight modes, when the operand is found and is n from 0 to 15, the shift completes: SHLA and SHLL give Rd times
2^n modulo 65536, SHRA the signed Rd divided by 2^n rounded down, SHRL the unsigned Rd divided by 2^n rounded down; C is the last bit
shifted out (bit 16-n of Rd to the left, bit n-1 to the right, 0 when n = 0), V = 0, S and Z are those of the result; nothing else changes.
The count domain and C and V are decisions of the spec (D15, D16). Rests on: 44_shift.md R220 (D15, D16), R221, R222, R223, R224. -/
def Obligations.ShiftResultsUpToFifteen : Prop :=
  ∀ (rd : RegNum) (e : Ea) (s : State) (b : Word) (n : Nat), operand s e = .ok b → b.toNat = n → n ≤ 15 →
    (∀ o, o = .shla ∨ o = .shll →
      ∃ t, exec (.ofEa o rd e) s = .next t ∧ (t.x rd).toNat = (s.x rd).toNat * 2 ^ n % 65536 ∧
        resultFlags t False (n ≠ 0 ∧ (s.x rd).toNat / 2 ^ (16 - n) % 2 = 1) ((t.x rd).toInt < 0) ((t.x rd).toNat = 0) ∧
        onlyRegsVcsz [s.reg rd] s t) ∧
    (∃ t, exec (.ofEa .shra rd e) s = .next t ∧ (t.x rd).toInt = (s.x rd).toInt / 2 ^ n ∧
      resultFlags t False (n ≠ 0 ∧ (s.x rd).toNat / 2 ^ (n - 1) % 2 = 1) ((t.x rd).toInt < 0) ((t.x rd).toNat = 0) ∧
      onlyRegsVcsz [s.reg rd] s t) ∧
    (∃ t, exec (.ofEa .shrl rd e) s = .next t ∧ (t.x rd).toNat = (s.x rd).toNat / 2 ^ n ∧
      resultFlags t False (n ≠ 0 ∧ (s.x rd).toNat / 2 ^ (n - 1) % 2 = 1) ((t.x rd).toInt < 0) ((t.x rd).toNat = 0) ∧
      onlyRegsVcsz [s.reg rd] s t)

/-- For each of the four shifts, when the operand is found and is 16 or more, the shift completes: Rd holds some value, S and Z are those of
that value, and nothing else but C, V and the counter of free values changes. That the instruction runs, with a free result and free C and
V, is the model's choice where the spec states no result (log 13). Rests on: 44_shift.md R220, 93_implementation_defined.md U8. -/
def Obligations.ShiftBySixteenOrMoreStillCompletes : Prop :=
  ∀ (o : EaOp) (rd : RegNum) (e : Ea) (s : State) (b : Word), (o = .shla ∨ o = .shll ∨ o = .shra ∨ o = .shrl) →
    operand s e = .ok b → 16 ≤ b.toNat →
    ∃ t, exec (.ofEa o rd e) s = .next t ∧ (t.flag.s = true ↔ (t.x rd).toInt < 0) ∧
      (t.flag.z = true ↔ (t.x rd).toNat = 0) ∧ sameRegsBut [s.reg rd] s t ∧ sameMode s t ∧ sameBytes s t ∧ samePlatform s t

/-- Every jump in every mode completes in every state; PC becomes Dsp, Dsp plus Rx modulo 65536, or the content of Rx if the condition of the
table of R240 holds, and stays otherwise; no flag, no other register, no byte of memory changes. Rests on: 45_jump_call.md R242 (D36), R240,
40_operands.md R160. -/
def Obligations.JumpsChangeOnlyPc : Prop :=
  ∀ (cc : Cond) (dsp : Word) (rx : RegNum) (s : State),
    (∃ t, exec (.ofJump cc (.direct dsp)) s = .next t ∧ onlyRegs [.pc] s t ∧
      (condTable cc s.flag → t.pc = dsp) ∧ (¬ condTable cc s.flag → t.pc = s.pc)) ∧
    (∃ t, exec (.ofJump cc (.indexed dsp rx)) s = .next t ∧ onlyRegs [.pc] s t ∧
      (condTable cc s.flag → t.pc = BitVec.ofNat 16 (dsp.toNat + (s.x rx).toNat)) ∧ (¬ condTable cc s.flag → t.pc = s.pc)) ∧
    (∃ t, exec (.ofJump cc (.indirect rx)) s = .next t ∧ onlyRegs [.pc] s t ∧
      (condTable cc s.flag → t.pc = s.x rx) ∧ (¬ condTable cc s.flag → t.pc = s.pc))

/-- When a word may be written at SP - 2, CALL in each of its three modes completes: SP is decreased by 2, the word there is the address of the
next instruction, PC is the target computed before SP changed; no other register, no flag and no other byte changes. The stack discipline is
a decision of the spec (D3). Rests on: 45_jump_call.md R258 (D3, D35), 47_stack_return.md R280. -/
def Obligations.CallPushesTheReturnAddress : Prop :=
  ∀ (e : JumpEa) (s : State), writableWord s (s.x 13#4 - 2#16) →
    ∃ t, exec (.ofCall e) s = .next t ∧ t.pc = jumpTarget s e ∧ t.x 13#4 = s.x 13#4 - 2#16 ∧
      holdsWord t (s.x 13#4 - 2#16) s.pc ∧
      onlyRegsBytes [s.reg 13#4, .pc] [s.x 13#4 - 2#16, s.x 13#4 - 2#16 + 1#16] s t

/-- In privileged mode, when a 16-bit access is at an even port, IN in each of its three modes completes: Rd holds a value, one event with the
port (the low 8 bits of the address), the width and that value is appended to the trace, and no other register, no flag, no byte of memory
and no limit register changes. A byte read gives at most 255. At the fifteen ports drawn with 00H in their even byte a word read gives at
most 255 and a byte read gives 0. When the environment has planned an answer, it is consumed: a word read gives its low byte at those ports
and the whole answer at every other, and a byte read gives 0 at those ports and its low byte at every other. These are the model's choice
(DESIGN CHOICE, log 22): that a read consumes a planned answer, that the drawn ports (all of R78 but 12h, 14h and 16h) deliver 00h in the
even byte, and which byte a byte read gives. Rests on: 46_io.md R270, 20_memory.md R71 (D19), R78, R79, R87, 60_exceptions.md R350 (D38). -/
def Obligations.InReadsWhatTheEnvironmentAnswers : Prop :=
  ∀ (rd : RegNum) (e : PortEa) (s : State) (port : Byte) (n : Nat), s.flag.p = true →
    port.toNat = (ioPort s e).1.toNat % 256 → n = (ioPort s e).2 → (n = 2 → port.toNat % 2 = 0) →
    ∃ t v, exec (.ofIn rd e) s = .next t ∧ t.x rd = v ∧ t.ioTrace = s.ioTrace ++ [.input port n v] ∧
      sameRegsBut [s.reg rd] s t ∧ t.flag = s.flag ∧ sameBytes s t ∧ t.halted = s.halted ∧ t.pending = s.pending ∧
      t.lowerLimit = s.lowerLimit ∧ t.upperLimit = s.upperLimit ∧ t.requests = s.requests ∧
      (n = 1 → v.toNat < 256) ∧ (port.toNat ∈ byteRegisterPorts → v.toNat < 256 ∧ (n = 1 → v.toNat = 0)) ∧
      (s.ioAnswers = [] → t.ioAnswers = []) ∧
      ∀ a rest, s.ioAnswers = a :: rest →
        t.ioAnswers = rest ∧ t.free = s.free ∧
        (port.toNat ∈ byteRegisterPorts → v.toNat = if n = 2 then a.toNat % 256 else 0) ∧
        (port.toNat ∉ byteRegisterPorts → v.toNat = if n = 2 then a.toNat else a.toNat % 256)

/-- In privileged mode, when a 16-bit access is at an even port, OUT in each of its three modes completes: one event with the port, the width
and the value (Rd, or its low byte) is appended to the trace; a word sent to F4h becomes the lower limit and a word sent to F6h the upper
limit, a byte sent to F4h or F6h replaces the high byte of that limit and a byte sent to F5h or F7h its low byte; no register, no flag, no
byte of memory and nothing else changes. That a byte write replaces one byte of a limit register is read from R71 and R63 (log 19). Rests
on: 46_io.md R271, 20_memory.md R71 (D19), R63, R87, 60_exceptions.md R345, R350. -/
def Obligations.OutSendsRdAndSetsTheLimits : Prop :=
  ∀ (rd : RegNum) (e : PortEa) (s : State) (port : Byte) (n : Nat), s.flag.p = true →
    port.toNat = (ioPort s e).1.toNat % 256 → n = (ioPort s e).2 → (n = 2 → port.toNat % 2 = 0) →
    ∃ t v, exec (.ofOut rd e) s = .next t ∧ v.toNat = (if n = 2 then (s.x rd).toNat else (s.x rd).toNat % 256) ∧
      t.ioTrace = s.ioTrace ++ [.output port n v] ∧
      t.lowerLimit.toNat = (if n = 2 ∧ port.toNat = 0xF4 then v.toNat
        else if n = 1 ∧ port.toNat = 0xF4 then v.toNat * 256 + s.lowerLimit.toNat % 256
        else if n = 1 ∧ port.toNat = 0xF5 then s.lowerLimit.toNat / 256 * 256 + v.toNat else s.lowerLimit.toNat) ∧
      t.upperLimit.toNat = (if n = 2 ∧ port.toNat = 0xF6 then v.toNat
        else if n = 1 ∧ port.toNat = 0xF6 then v.toNat * 256 + s.upperLimit.toNat % 256
        else if n = 1 ∧ port.toNat = 0xF7 then s.upperLimit.toNat / 256 * 256 + v.toNat else s.upperLimit.toNat) ∧
      sameRegsBut [] s t ∧ t.flag = s.flag ∧ sameBytes s t ∧ t.halted = s.halted ∧ t.pending = s.pending ∧
      t.ioAnswers = s.ioAnswers ∧ t.requests = s.requests ∧ t.free = s.free

/-- In privileged mode IN and OUT in the modes Direct and Register Indirect are refused when the low 8 bits of the address are odd. This is a
decision of the spec (D19). Rests on: 20_memory.md R71 (D19), 93_implementation_defined.md U16. -/
def Obligations.OddPortWordAccessIsRefused : Prop :=
  ∀ (rd : RegNum) (e : PortEa) (s : State), s.flag.p = true → (ioPort s e).2 = 2 → (ioPort s e).1.toNat % 2 = 1 →
    exec (.ofIn rd e) s = .refused .oddIoPort ∧ exec (.ofOut rd e) s = .refused .oddIoPort

/-- In user mode, when trap entry can be done, IN and OUT in their three modes, EI, DI and HALT take the trap 13 with the address of the next
instruction as return address, and so does RETI; nothing else happens. The set is a decision of the spec (D20); the trap of RETI is the
alternative of U14 that the model chose (log 16). Rests on: 60_exceptions.md R325, R341 (D20), R335 (D21), 47_stack_return.md R284,
93_implementation_defined.md U14. -/
def Obligations.PrivilegedInstructionsTrapInUserMode : Prop :=
  ∀ (s : State) (i : Instr), s.flag.p = false → trapReady 13 s →
    (i = .ei ∨ i = .di ∨ i = .halt ∨ i = .reti ∨ (∃ rd e, i = .ofIn rd e) ∨ (∃ rd e, i = .ofOut rd e)) →
    ∃ t, exec i s = .next t ∧ trapEffect 13 s.pc s t

/-- In privileged mode EI completes with E = 1 and DI with E = 0; P, V, C, S, Z, every register, every byte of memory and all the rest are as
before. Rests on: 48_system.md R300, R301 (D20). -/
def Obligations.EiDiWriteOnlyE : Prop :=
  ∀ s : State, s.flag.p = true →
    (∃ t, exec .ei s = .next t ∧ t.flag = { s.flag with e := true } ∧ sameRegsBut [] s t ∧ sameBytes s t ∧ samePlatform s t ∧
      t.free = s.free) ∧
    (∃ t, exec .di s = .next t ∧ t.flag = { s.flag with e := false } ∧ sameRegsBut [] s t ∧ sameBytes s t ∧ samePlatform s t ∧
      t.free = s.free)

/-- In privileged mode HALT completes with halted = 1 and every register, every flag, every byte of memory and the rest as before; and from
every state with halted = 1 no step is taken: the model stops with the fault halted. These are decisions of the spec (D28; log 28). Rests
on: 48_system.md R304 (D28), 10_state.md R26, R36. -/
def Obligations.HaltStopsTheMachine : Prop :=
  (∀ s : State, s.flag.p = true → ∃ t, exec .halt s = .next t ∧ t.halted = true ∧ sameRegsBut [] s t ∧ t.flag = s.flag ∧
      sameBytes s t ∧ t.pending = s.pending ∧ t.lowerLimit = s.lowerLimit ∧ t.upperLimit = s.upperLimit ∧ t.ioTrace = s.ioTrace ∧
      t.ioAnswers = s.ioAnswers ∧ t.requests = s.requests ∧ t.free = s.free) ∧
  ∀ s : State, s.halted = true → step s = .fault .halted

/-- When Rd does not name the stack pointer in use and a word may be written at SP - 2, PUSH completes: SP is decreased by 2, the word there is
Rd; no other register, no flag and no other byte changes. When Rd names the stack pointer in use, PUSH is refused in every state. The stack
discipline and the refusal are decisions of the spec (D3, D35). Rests on: 47_stack_return.md R280 (D3), R281 (D35),
93_implementation_defined.md U15. -/
def Obligations.PushStoresAtTheNewTop : Prop :=
  ∀ (rd : RegNum) (s : State),
    (s.reg rd ≠ s.reg 13#4 → writableWord s (s.x 13#4 - 2#16) →
      ∃ t, exec (.push rd) s = .next t ∧ holdsWord t (s.x 13#4 - 2#16) (s.x rd) ∧ t.x 13#4 = s.x 13#4 - 2#16 ∧
        onlyRegsBytes [s.reg 13#4] [s.x 13#4 - 2#16, s.x 13#4 - 2#16 + 1#16] s t) ∧
    (s.reg rd = s.reg 13#4 → exec (.push rd) s = .refused .stackPointerOperand)

/-- When Rd does not name the stack pointer in use and the word at SP may be read and memory holds it, POP completes: Rd is that word, SP is
increased by 2, and no other register, no flag and no byte of memory changes. When Rd names the stack pointer in use, POP is refused in
every state. The stack discipline and the refusal are decisions of the spec (D3, D35). Rests on: 47_stack_return.md R280 (D3), R282 (D35),
93_implementation_defined.md U15. -/
def Obligations.PopTakesTheTop : Prop :=
  ∀ (rd : RegNum) (s : State),
    (s.reg rd ≠ s.reg 13#4 → ∀ w, readableWord s .read (s.x 13#4) w →
      ∃ t, exec (.pop rd) s = .next t ∧ t.x rd = w ∧ t.x 13#4 = s.x 13#4 + 2#16 ∧ onlyRegs [s.reg rd, s.reg 13#4] s t) ∧
    (s.reg rd = s.reg 13#4 → exec (.pop rd) s = .refused .stackPointerOperand)

/-- When the word at SP may be read and memory holds it, RET completes: PC is that word, SP is increased by 2, and nothing else changes. Rests
on: 47_stack_return.md R280 (D3), R283. -/
def Obligations.RetTakesPcFromTheStack : Prop :=
  ∀ (s : State) (w : Word), readableWord s .read (s.x 13#4) w →
    ∃ t, exec .ret s = .next t ∧ t.pc = w ∧ t.x 13#4 = s.x 13#4 + 2#16 ∧ onlyRegs [s.reg 13#4, .pc] s t

/-- In privileged mode, when the words at SSP and SSP + 2 may be read and memory holds them, RETI completes: E, P, V, C, S and Z are bits 7, 6,
3, 2, 1 and 0 of the first word, PC is the second word, SSP is increased by 4, and nothing else changes. That both pops use SSP is a
decision of the spec (D26). Rests on: 47_stack_return.md R284 (D26), 10_state.md R29 (D39). -/
def Obligations.RetiRestoresFlagAndPc : Prop :=
  ∀ (s : State) (f w : Word), s.flag.p = true → readableWord s .read s.ssp f → readableWord s .read (s.ssp + 2#16) w →
    ∃ t, exec .reti s = .next t ∧ t.flag.e = f.getLsbD 7 ∧ t.flag.p = f.getLsbD 6 ∧ t.flag.v = f.getLsbD 3 ∧
      t.flag.c = f.getLsbD 2 ∧ t.flag.s = f.getLsbD 1 ∧ t.flag.z = f.getLsbD 0 ∧ t.pc = w ∧ t.ssp = s.ssp + 4#16 ∧
      sameRegsBut [.ssp, .pc] s t ∧ sameBytes s t ∧ samePlatform s t ∧ t.free = s.free

/-- For each of the sixteen causes and every return address, when trap entry can be done it answers the state that R335 describes: FLAG saved, P
= 1, E = 0, the result flags kept, the return address and the old FLAG on the system stack, USP untouched, the request of an interrupt
acknowledged, PC from the vector at FFE0h + 2n; nothing else changes. In either mode, when trap entry can be done, SVC completes in the
state of trap entry with number 15 (vector FFFEh) and the address of the next instruction as return address. The sequence is a decision of
the spec (D21). Rests on: 60_exceptions.md R335 (D21), R336 (D22), R327, 48_system.md R302, 20_memory.md R76. -/
def Obligations.TrapEntryAndSvcEffect : Prop :=
  (∀ (c : Cause) (retpc : Word) (s : State), trapReady c.number s →
    ∃ t, trapEntry c retpc s = .next t ∧ trapEffect c.number retpc s t) ∧
  ∀ s : State, trapReady 15 s → ∃ t, exec .svc s = .next t ∧ trapEffect 15 s.pc s t

/-- When trap entry can be done, the instruction takes the trap named, with the address of the next instruction as return address, and nothing
of its own happens: the seventeen operations with a value operand, in every mode (with an even Rd for MULL and DIVL), when the operand
access raises AddressError or MemoryViolation, which a word mode does at an odd address and at an even address that the protection rejects,
and the byte mode at an address it rejects; ST, which stores nothing, at an odd address in the word modes (AddressError) and at an address
that the protection rejects in every mode (MemoryViolation); and, with an even SP, PUSH and CALL when the protection rejects the write at SP
- 2, POP and RET when it rejects the read at SP (MemoryViolation; it rejects nothing in privileged mode). PUSH and POP of the stack pointer
in use are refused before the access (O43, O44). These are decisions of the spec (D18, D23, D33, D34). Rests on: 20_memory.md R68 (D18,
D34), R72 (D33), 40_operands.md R159, 41_no_load_store.md R173; 45_jump_call.md R258, 47_stack_return.md R281, R282, R283; 60_exceptions.md
R321 (D23), R323, R328. -/
def Obligations.FailedOperandAccessTraps : Prop :=
  (∀ (o : EaOp) (rd : RegNum) (e : Ea) (s : State) (ex : Exc), ((o = .mull ∨ o = .divl) → rd.toNat % 2 = 0) →
    operand s e = .raised ex → trapReady ex.number s →
    ∃ t, exec (.ofEa o rd e) s = .next t ∧ trapEffect ex.number s.pc s t) ∧
  (∀ (s : State) (dsp a : Word) (rx : RegNum) (d4 : BitVec 4) (e : Ea),
    ((e = .direct dsp ∧ a = dsp) ∨ (e = .indexed dsp rx ∧ a = BitVec.ofNat 16 (dsp.toNat + (s.x rx).toNat)) ∨
      (e = .fpRel d4 ∧ a = BitVec.ofInt 16 ((s.x 12#4).toInt + 2 * d4.toInt)) ∨ (e = .indirect rx ∧ a = s.x rx) →
      (a.toNat % 2 = 1 → operand s e = .raised .addressError) ∧
      (a.toNat % 2 = 0 → s.rejects .read a = true → operand s e = .raised .memoryViolation)) ∧
    (s.rejects .read (s.x rx) = true → operand s (.byteIndirect rx) = .raised .memoryViolation)) ∧
  (∀ (rd : RegNum) (e : MemEa) (s : State),
    ((storeTarget s e).2 = 2 → (storeTarget s e).1.toNat % 2 = 1 → trapReady 10 s →
      ∃ t, exec (.ofSt rd e) s = .next t ∧ trapEffect 10 s.pc s t) ∧
    (((storeTarget s e).2 = 2 → (storeTarget s e).1.toNat % 2 = 0) → s.rejects .write (storeTarget s e).1 = true →
      trapReady 11 s → ∃ t, exec (.ofSt rd e) s = .next t ∧ trapEffect 11 s.pc s t)) ∧
  ∀ (s : State) (rd : RegNum) (e : JumpEa) (i : Instr), (s.x 13#4).toNat % 2 = 0 → trapReady 11 s →
    ((i = .push rd ∧ s.reg rd ≠ s.reg 13#4) ∨ i = .ofCall e → s.rejects .write (s.x 13#4 - 2#16) = true →
      ∃ t, exec i s = .next t ∧ trapEffect 11 s.pc s t) ∧
    ((i = .pop rd ∧ s.reg rd ≠ s.reg 13#4) ∨ i = .ret → s.rejects .read (s.x 13#4) = true →
      ∃ t, exec i s = .next t ∧ trapEffect 11 s.pc s t)

/-- With an odd USP in user mode, when trap entry can be done, PUSH, POP (of an Rd that does not name the stack pointer in use), CALL and RET
take the AddressError trap 10 and have no effect of their own; with an odd SSP in privileged mode PUSH, POP (of such an Rd), CALL, RET and
RETI are refused, since the trap entry itself would push through the odd SSP (D18, D21). PUSH and POP of the stack pointer in use are
refused before the access, odd or even (O43, O44). Rests on: 20_memory.md R68 (D18), 47_stack_return.md R281, R282 (D35), 60_exceptions.md
R323, R339 (D21). -/
def Obligations.OddStackPointerTraps : Prop :=
  ∀ (s : State) (rd : RegNum) (e : JumpEa) (i : Instr),
    (((i = .push rd ∨ i = .pop rd) ∧ s.reg rd ≠ s.reg 13#4) ∨ i = .ofCall e ∨ i = .ret →
      s.flag.p = false → s.usp.toNat % 2 = 1 → trapReady 10 s → ∃ t, exec i s = .next t ∧ trapEffect 10 s.pc s t) ∧
    (((i = .push rd ∨ i = .pop rd) ∧ s.reg rd ≠ s.reg 13#4) ∨ i = .ofCall e ∨ i = .ret ∨ i = .reti →
      s.flag.p = true → s.ssp.toNat % 2 = 1 → exec i s = .refused .trapEntryFault)

/-- For every cause, return address and state: if trap entry answers a next state, then RETI run in that state, with any PC, completes, and
FLAG, SSP, USP and the general registers are those before the trap and PC is the return address. Rests on: 60_exceptions.md R335 (D21),
R338, 47_stack_return.md R284 (D26). -/
def Obligations.RetiUndoesTrapEntry : Prop :=
  ∀ (c : Cause) (retpc pc' : Word) (s t : State), trapEntry c retpc s = .next t →
    ∃ u, exec .reti (t.withPc pc') = .next u ∧ u.flag = s.flag ∧ u.pc = retpc ∧ sameRegsBut [.pc] s u

/-- In a state that is not halted, after the requests of the boundary have been received, when no interrupt is to be taken and the words of the
encoding of an instruction may be fetched at PC and hold there, the step is the execution of that instruction with PC moved past its words,
also where the instruction is not well-formed (MULL, DIVL with an odd Rd). Rests on: 10_state.md R26 (D4), 20_memory.md R70. -/
def Obligations.StepRunsTheDecodedInstruction : Prop :=
  ∀ (s : State) (i : Instr), s.halted = false → noInterrupt s.receive →
    (∀ (k : Nat) (w : Word), (encode i)[k]? = some w → readableWord s.receive .fetch (s.pc + BitVec.ofNat 16 (2 * k)) w) →
    step s = exec i (s.receive.withPc (s.pc + BitVec.ofNat 16 (2 * (encode i).length)))

/-- In a state that is not halted with no interrupt to take: at an odd PC the step is the AddressError trap, and at an even PC whose fetch the
protection rejects the MemoryViolation trap, both with PC as return address; at an even PC in E000h to EFFFh that is not rejected the step
is refused. When the word at PC may be fetched and is the first of two words of an instruction, and the protection rejects the fetch at PC +
2, the step is the MemoryViolation trap with PC + 2, the address of that second word, as return address (read from R321 and R26: DEDUCED,
log 18); when PC + 2 is in E000h to EFFFh and not rejected, the step is refused. When the OP byte of the word at PC is a blank cell, the
step is the UndefinedInstruction trap with PC + 2 as return address; when it is not a blank cell and no instruction has the word as its
first word, the step is refused, as a must-be-zero field or as the jump condition Dh. These are decisions of the spec (D18, D23, D27, D32,
D33). Rests on: 60_exceptions.md R321 (D23), R323, R326, R328, 10_state.md R26; 20_memory.md R70, R72 (D33), R75 (D32), 30_encoding.md R115,
R119, R120, R121 (D27), R127. -/
def Obligations.BadFetchesTrapOrAreRefused : Prop :=
  ∀ (s : State), s.halted = false → noInterrupt s.receive →
    (s.pc.toNat % 2 = 1 → step s = trapEntry (.exception .addressError) s.pc s.receive) ∧
    (s.pc.toNat % 2 = 0 → s.receive.rejects .fetch s.pc = true → step s = trapEntry (.exception .memoryViolation) s.pc s.receive) ∧
    (s.pc.toNat % 2 = 0 → s.receive.rejects .fetch s.pc = false → 0xE000 ≤ s.pc.toNat → s.pc.toNat < 0xF000 →
      step s = .refused .reservedRegion) ∧
    ∀ w1, readableWord s.receive .fetch s.pc w1 →
      ((∃ i w2, encode i = [w1, w2]) →
        (s.receive.rejects .fetch (s.pc + 2#16) = true →
          step s = trapEntry (.exception .memoryViolation) (s.pc + 2#16) s.receive) ∧
        (s.receive.rejects .fetch (s.pc + 2#16) = false → 0xE000 ≤ (s.pc + 2#16).toNat → (s.pc + 2#16).toNat < 0xF000 →
          step s = .refused .reservedRegion)) ∧
      ((w1.extractLsb' 8 8).toNat ∈ blankCells → step s = trapEntry (.exception .undefinedInstruction) (s.pc + 2#16) s.receive) ∧
      ((w1.extractLsb' 8 8).toNat ∉ blankCells → (∀ i rest, encode i ≠ w1 :: rest) →
        step s = .refused .mustBeZero ∨ step s = .refused .jumpConditionD)

/-- In a state that is not halted, after the requests of the boundary have been received: if E = 1 and some source is pending, the step is trap
entry for a pending source with PC as return address, and for the pending source when there is only one; if E = 0 the step does not depend
on what is pending but for keeping it: it fetches. The acceptance rule and the open priority are decisions of the spec (D24, D25). Rests on:
60_exceptions.md R331 (D24), R333 (D25), R335. -/
def Obligations.EnabledPendingInterruptIsTaken : Prop :=
  ∀ s : State, s.halted = false →
    (s.receive.flag.e = true → s.receive.pending ≠ 0 →
      ∃ (n : Fin 10) (k : Nat), s.receive.pending.getLsbD n.val = true ∧
        step s = trapEntry (.interrupt n) s.pc (s.receive.withFree k)) ∧
    (s.receive.flag.e = true → ∀ n : Fin 10, (∀ m : Fin 10, s.receive.pending.getLsbD m.val = true ↔ m = n) →
      step s = trapEntry (.interrupt n) s.pc s.receive) ∧
    (s.receive.flag.e = false → step s = (fetch s.receive).finish s.receive)

/-- After reset PC is F000h, P = 1, E = 0, halted = 0, no interrupt is pending, the reserved bits of FLAG are 0 and no byte of memory holds a
value. PC, P, E, halted, pending and the reserved bits are decisions of the spec (D29, D39). That no byte of memory holds a value is the
model's: RAM and vectors hold none (log 3, DESIGN CHOICE), and the ROM, whose IPL the spec leaves out, is loaded from outside (log 4,
DEDUCED). The values the spec leaves open (the general registers, SSP, USP, V, C, S, Z, the limit registers) are not part of this statement.
Rests on: 10_state.md R29 (D39), R37 (D29), 70_reset_and_hazards.md R381. -/
def Obligations.ResetStateValues : Prop :=
  State.reset.pc = 0xF000#16 ∧ State.reset.flag.p = true ∧ State.reset.flag.e = false ∧ State.reset.halted = false ∧
    State.reset.pending = 0#10 ∧ State.reset.flag.toWord &&& 0xFFF0#16 = 0x0040#16 ∧ ∀ a, State.reset.byteAt a = none

/-- The memory of the reset state is in canonical form. Rests on: 20_memory.md R60, 10_state.md R37 (log 3). -/
def Obligations.InvariantAtReset : Prop :=
  MemInv State.reset

/-- From every state whose memory is in canonical form, whether a run reaches it or not, a step that answers a next state answers one whose
memory is in canonical form. Rests on: 20_memory.md R60, R67, R69, 60_exceptions.md R335. -/
def Obligations.EveryStepKeepsTheInvariant : Prop :=
  ∀ s t : State, MemInv s → step s = .next t → MemInv t

/-- Whatever the state and the instruction, a step that answers a next state leaves every byte from E000h to FFDFh as it was: no instruction and
no trap entry writes the ROM or the reserved region (D32). Rests on: 20_memory.md R67, R74, R75 (D32). -/
def Obligations.NoStepWritesRomOrReserved : Prop :=
  ∀ s t : State, step s = .next t → ∀ a : Nat, 0xE000 ≤ a → a < 0xFFE0 → t.byteAt a = s.byteAt a

/-- A step from user mode that answers a next state leaves halted, the limit registers and the I/O trace as they were; if it ends in user mode,
E and SSP are as before; if it ends in privileged mode, it ended by trap entry: E = 0, USP and the general registers are as before, SSP is
lower by 4, the old FLAG is on the system stack, and PC is the word at one of the sixteen vectors. The privileged set and the trap of RETI
in user mode are choices (D20, D26; log 16). Rests on: 60_exceptions.md R341 (D20), R342, R343, R335 (D21). -/
def Obligations.UserModeIsConfined : Prop :=
  ∀ s t : State, s.flag.p = false → step s = .next t →
    t.halted = s.halted ∧ t.lowerLimit = s.lowerLimit ∧ t.upperLimit = s.upperLimit ∧ t.ioTrace = s.ioTrace ∧
    (t.flag.p = false → t.flag.e = s.flag.e ∧ t.ssp = s.ssp) ∧
    (t.flag.p = true → t.flag.e = false ∧ t.ssp = s.ssp - 4#16 ∧ sameRegsBut [.ssp, .pc] s t ∧
      holdsWord t t.ssp s.flag.toWord ∧ ∃ n, n < 16 ∧ holdsWord t (vectorAt n) t.pc)

/-- If a step goes from privileged mode to user mode, then the word at PC was D400h, RETI, and the word at SSP, which it popped as FLAG, has bit
6 clear. Rests on: 60_exceptions.md R343, 10_state.md R33, 47_stack_return.md R284. -/
def Obligations.PrivilegeIsLeftOnlyByReti : Prop :=
  ∀ s t : State, s.flag.p = true → step s = .next t → t.flag.p = false →
    holdsWord s s.pc 0xD400#16 ∧ ∃ f, holdsWord s s.ssp f ∧ f.getLsbD 6 = false

/-- A step keeps the I/O trace and appends at most one event; if it appends one, the step was in privileged mode and the word at PC has an OP
byte of IN or OUT; if it ends halted, the word at PC was FF00h. Rests on: 20_memory.md R61, R81, R87, 46_io.md R270, R271, 48_system.md
R304. -/
def Obligations.TraceGrowsAndHaltIsByHalt : Prop :=
  ∀ s t : State, step s = .next t →
    (t.ioTrace = s.ioTrace ∨ (s.flag.p = true ∧ (∃ ev, t.ioTrace = s.ioTrace ++ [ev]) ∧
      ∃ w1, holdsWord s s.pc w1 ∧ (w1.extractLsb' 8 8).toNat ∈ [0xB0, 0xB6, 0xB7, 0xB8, 0xBE, 0xBF])) ∧
    (t.halted = true → holdsWord s s.pc 0xFF00#16)
end

