-- ==== Sys2Proof/Laws/State.lean ====
section
/-! SUPPORT. The small lemmas of the state record: each field after each update. -/

namespace Sys2Proof.Machine

@[simp] theorem State.g_withG (st : State) (x : Vector Word 13) : (st.withG x).g = x := rfl
@[simp] theorem State.ssp_withG (st : State) (x : Vector Word 13) : (st.withG x).ssp = st.ssp := rfl
@[simp] theorem State.usp_withG (st : State) (x : Vector Word 13) : (st.withG x).usp = st.usp := rfl
@[simp] theorem State.pc_withG (st : State) (x : Vector Word 13) : (st.withG x).pc = st.pc := rfl
@[simp] theorem State.flag_withG (st : State) (x : Vector Word 13) : (st.withG x).flag = st.flag := rfl
@[simp] theorem State.halted_withG (st : State) (x : Vector Word 13) : (st.withG x).halted = st.halted := rfl
@[simp] theorem State.pending_withG (st : State) (x : Vector Word 13) : (st.withG x).pending = st.pending := rfl
@[simp] theorem State.lowerLimit_withG (st : State) (x : Vector Word 13) : (st.withG x).lowerLimit = st.lowerLimit := rfl
@[simp] theorem State.upperLimit_withG (st : State) (x : Vector Word 13) : (st.withG x).upperLimit = st.upperLimit := rfl
@[simp] theorem State.mem_withG (st : State) (x : Vector Word 13) : (st.withG x).mem = st.mem := rfl
@[simp] theorem State.ioTrace_withG (st : State) (x : Vector Word 13) : (st.withG x).ioTrace = st.ioTrace := rfl
@[simp] theorem State.ioAnswers_withG (st : State) (x : Vector Word 13) : (st.withG x).ioAnswers = st.ioAnswers := rfl
@[simp] theorem State.requests_withG (st : State) (x : Vector Word 13) : (st.withG x).requests = st.requests := rfl
@[simp] theorem State.free_withG (st : State) (x : Vector Word 13) : (st.withG x).free = st.free := rfl
@[simp] theorem State.withG_self (st : State) : st.withG st.g = st := rfl
@[simp] theorem State.withG_twice (st : State) (x y : Vector Word 13) : (st.withG x).withG y = st.withG y := rfl

@[simp] theorem State.g_withSsp (st : State) (x : Word) : (st.withSsp x).g = st.g := rfl
@[simp] theorem State.ssp_withSsp (st : State) (x : Word) : (st.withSsp x).ssp = x := rfl
@[simp] theorem State.usp_withSsp (st : State) (x : Word) : (st.withSsp x).usp = st.usp := rfl
@[simp] theorem State.pc_withSsp (st : State) (x : Word) : (st.withSsp x).pc = st.pc := rfl
@[simp] theorem State.flag_withSsp (st : State) (x : Word) : (st.withSsp x).flag = st.flag := rfl
@[simp] theorem State.halted_withSsp (st : State) (x : Word) : (st.withSsp x).halted = st.halted := rfl
@[simp] theorem State.pending_withSsp (st : State) (x : Word) : (st.withSsp x).pending = st.pending := rfl
@[simp] theorem State.lowerLimit_withSsp (st : State) (x : Word) : (st.withSsp x).lowerLimit = st.lowerLimit := rfl
@[simp] theorem State.upperLimit_withSsp (st : State) (x : Word) : (st.withSsp x).upperLimit = st.upperLimit := rfl
@[simp] theorem State.mem_withSsp (st : State) (x : Word) : (st.withSsp x).mem = st.mem := rfl
@[simp] theorem State.ioTrace_withSsp (st : State) (x : Word) : (st.withSsp x).ioTrace = st.ioTrace := rfl
@[simp] theorem State.ioAnswers_withSsp (st : State) (x : Word) : (st.withSsp x).ioAnswers = st.ioAnswers := rfl
@[simp] theorem State.requests_withSsp (st : State) (x : Word) : (st.withSsp x).requests = st.requests := rfl
@[simp] theorem State.free_withSsp (st : State) (x : Word) : (st.withSsp x).free = st.free := rfl
@[simp] theorem State.withSsp_self (st : State) : st.withSsp st.ssp = st := rfl
@[simp] theorem State.withSsp_twice (st : State) (x y : Word) : (st.withSsp x).withSsp y = st.withSsp y := rfl

@[simp] theorem State.g_withUsp (st : State) (x : Word) : (st.withUsp x).g = st.g := rfl
@[simp] theorem State.ssp_withUsp (st : State) (x : Word) : (st.withUsp x).ssp = st.ssp := rfl
@[simp] theorem State.usp_withUsp (st : State) (x : Word) : (st.withUsp x).usp = x := rfl
@[simp] theorem State.pc_withUsp (st : State) (x : Word) : (st.withUsp x).pc = st.pc := rfl
@[simp] theorem State.flag_withUsp (st : State) (x : Word) : (st.withUsp x).flag = st.flag := rfl
@[simp] theorem State.halted_withUsp (st : State) (x : Word) : (st.withUsp x).halted = st.halted := rfl
@[simp] theorem State.pending_withUsp (st : State) (x : Word) : (st.withUsp x).pending = st.pending := rfl
@[simp] theorem State.lowerLimit_withUsp (st : State) (x : Word) : (st.withUsp x).lowerLimit = st.lowerLimit := rfl
@[simp] theorem State.upperLimit_withUsp (st : State) (x : Word) : (st.withUsp x).upperLimit = st.upperLimit := rfl
@[simp] theorem State.mem_withUsp (st : State) (x : Word) : (st.withUsp x).mem = st.mem := rfl
@[simp] theorem State.ioTrace_withUsp (st : State) (x : Word) : (st.withUsp x).ioTrace = st.ioTrace := rfl
@[simp] theorem State.ioAnswers_withUsp (st : State) (x : Word) : (st.withUsp x).ioAnswers = st.ioAnswers := rfl
@[simp] theorem State.requests_withUsp (st : State) (x : Word) : (st.withUsp x).requests = st.requests := rfl
@[simp] theorem State.free_withUsp (st : State) (x : Word) : (st.withUsp x).free = st.free := rfl
@[simp] theorem State.withUsp_self (st : State) : st.withUsp st.usp = st := rfl
@[simp] theorem State.withUsp_twice (st : State) (x y : Word) : (st.withUsp x).withUsp y = st.withUsp y := rfl

@[simp] theorem State.g_withPc (st : State) (x : Word) : (st.withPc x).g = st.g := rfl
@[simp] theorem State.ssp_withPc (st : State) (x : Word) : (st.withPc x).ssp = st.ssp := rfl
@[simp] theorem State.usp_withPc (st : State) (x : Word) : (st.withPc x).usp = st.usp := rfl
@[simp] theorem State.pc_withPc (st : State) (x : Word) : (st.withPc x).pc = x := rfl
@[simp] theorem State.flag_withPc (st : State) (x : Word) : (st.withPc x).flag = st.flag := rfl
@[simp] theorem State.halted_withPc (st : State) (x : Word) : (st.withPc x).halted = st.halted := rfl
@[simp] theorem State.pending_withPc (st : State) (x : Word) : (st.withPc x).pending = st.pending := rfl
@[simp] theorem State.lowerLimit_withPc (st : State) (x : Word) : (st.withPc x).lowerLimit = st.lowerLimit := rfl
@[simp] theorem State.upperLimit_withPc (st : State) (x : Word) : (st.withPc x).upperLimit = st.upperLimit := rfl
@[simp] theorem State.mem_withPc (st : State) (x : Word) : (st.withPc x).mem = st.mem := rfl
@[simp] theorem State.ioTrace_withPc (st : State) (x : Word) : (st.withPc x).ioTrace = st.ioTrace := rfl
@[simp] theorem State.ioAnswers_withPc (st : State) (x : Word) : (st.withPc x).ioAnswers = st.ioAnswers := rfl
@[simp] theorem State.requests_withPc (st : State) (x : Word) : (st.withPc x).requests = st.requests := rfl
@[simp] theorem State.free_withPc (st : State) (x : Word) : (st.withPc x).free = st.free := rfl
@[simp] theorem State.withPc_self (st : State) : st.withPc st.pc = st := rfl
@[simp] theorem State.withPc_twice (st : State) (x y : Word) : (st.withPc x).withPc y = st.withPc y := rfl

@[simp] theorem State.g_withFlag (st : State) (x : Flag) : (st.withFlag x).g = st.g := rfl
@[simp] theorem State.ssp_withFlag (st : State) (x : Flag) : (st.withFlag x).ssp = st.ssp := rfl
@[simp] theorem State.usp_withFlag (st : State) (x : Flag) : (st.withFlag x).usp = st.usp := rfl
@[simp] theorem State.pc_withFlag (st : State) (x : Flag) : (st.withFlag x).pc = st.pc := rfl
@[simp] theorem State.flag_withFlag (st : State) (x : Flag) : (st.withFlag x).flag = x := rfl
@[simp] theorem State.halted_withFlag (st : State) (x : Flag) : (st.withFlag x).halted = st.halted := rfl
@[simp] theorem State.pending_withFlag (st : State) (x : Flag) : (st.withFlag x).pending = st.pending := rfl
@[simp] theorem State.lowerLimit_withFlag (st : State) (x : Flag) : (st.withFlag x).lowerLimit = st.lowerLimit := rfl
@[simp] theorem State.upperLimit_withFlag (st : State) (x : Flag) : (st.withFlag x).upperLimit = st.upperLimit := rfl
@[simp] theorem State.mem_withFlag (st : State) (x : Flag) : (st.withFlag x).mem = st.mem := rfl
@[simp] theorem State.ioTrace_withFlag (st : State) (x : Flag) : (st.withFlag x).ioTrace = st.ioTrace := rfl
@[simp] theorem State.ioAnswers_withFlag (st : State) (x : Flag) : (st.withFlag x).ioAnswers = st.ioAnswers := rfl
@[simp] theorem State.requests_withFlag (st : State) (x : Flag) : (st.withFlag x).requests = st.requests := rfl
@[simp] theorem State.free_withFlag (st : State) (x : Flag) : (st.withFlag x).free = st.free := rfl
@[simp] theorem State.withFlag_self (st : State) : st.withFlag st.flag = st := rfl
@[simp] theorem State.withFlag_twice (st : State) (x y : Flag) : (st.withFlag x).withFlag y = st.withFlag y := rfl

@[simp] theorem State.g_withHalted (st : State) (x : Bool) : (st.withHalted x).g = st.g := rfl
@[simp] theorem State.ssp_withHalted (st : State) (x : Bool) : (st.withHalted x).ssp = st.ssp := rfl
@[simp] theorem State.usp_withHalted (st : State) (x : Bool) : (st.withHalted x).usp = st.usp := rfl
@[simp] theorem State.pc_withHalted (st : State) (x : Bool) : (st.withHalted x).pc = st.pc := rfl
@[simp] theorem State.flag_withHalted (st : State) (x : Bool) : (st.withHalted x).flag = st.flag := rfl
@[simp] theorem State.halted_withHalted (st : State) (x : Bool) : (st.withHalted x).halted = x := rfl
@[simp] theorem State.pending_withHalted (st : State) (x : Bool) : (st.withHalted x).pending = st.pending := rfl
@[simp] theorem State.lowerLimit_withHalted (st : State) (x : Bool) : (st.withHalted x).lowerLimit = st.lowerLimit := rfl
@[simp] theorem State.upperLimit_withHalted (st : State) (x : Bool) : (st.withHalted x).upperLimit = st.upperLimit := rfl
@[simp] theorem State.mem_withHalted (st : State) (x : Bool) : (st.withHalted x).mem = st.mem := rfl
@[simp] theorem State.ioTrace_withHalted (st : State) (x : Bool) : (st.withHalted x).ioTrace = st.ioTrace := rfl
@[simp] theorem State.ioAnswers_withHalted (st : State) (x : Bool) : (st.withHalted x).ioAnswers = st.ioAnswers := rfl
@[simp] theorem State.requests_withHalted (st : State) (x : Bool) : (st.withHalted x).requests = st.requests := rfl
@[simp] theorem State.free_withHalted (st : State) (x : Bool) : (st.withHalted x).free = st.free := rfl
@[simp] theorem State.withHalted_self (st : State) : st.withHalted st.halted = st := rfl
@[simp] theorem State.withHalted_twice (st : State) (x y : Bool) : (st.withHalted x).withHalted y = st.withHalted y := rfl

@[simp] theorem State.g_withPending (st : State) (x : BitVec 10) : (st.withPending x).g = st.g := rfl
@[simp] theorem State.ssp_withPending (st : State) (x : BitVec 10) : (st.withPending x).ssp = st.ssp := rfl
@[simp] theorem State.usp_withPending (st : State) (x : BitVec 10) : (st.withPending x).usp = st.usp := rfl
@[simp] theorem State.pc_withPending (st : State) (x : BitVec 10) : (st.withPending x).pc = st.pc := rfl
@[simp] theorem State.flag_withPending (st : State) (x : BitVec 10) : (st.withPending x).flag = st.flag := rfl
@[simp] theorem State.halted_withPending (st : State) (x : BitVec 10) : (st.withPending x).halted = st.halted := rfl
@[simp] theorem State.pending_withPending (st : State) (x : BitVec 10) : (st.withPending x).pending = x := rfl
@[simp] theorem State.lowerLimit_withPending (st : State) (x : BitVec 10) : (st.withPending x).lowerLimit = st.lowerLimit := rfl
@[simp] theorem State.upperLimit_withPending (st : State) (x : BitVec 10) : (st.withPending x).upperLimit = st.upperLimit := rfl
@[simp] theorem State.mem_withPending (st : State) (x : BitVec 10) : (st.withPending x).mem = st.mem := rfl
@[simp] theorem State.ioTrace_withPending (st : State) (x : BitVec 10) : (st.withPending x).ioTrace = st.ioTrace := rfl
@[simp] theorem State.ioAnswers_withPending (st : State) (x : BitVec 10) : (st.withPending x).ioAnswers = st.ioAnswers := rfl
@[simp] theorem State.requests_withPending (st : State) (x : BitVec 10) : (st.withPending x).requests = st.requests := rfl
@[simp] theorem State.free_withPending (st : State) (x : BitVec 10) : (st.withPending x).free = st.free := rfl
@[simp] theorem State.withPending_self (st : State) : st.withPending st.pending = st := rfl
@[simp] theorem State.withPending_twice (st : State) (x y : BitVec 10) : (st.withPending x).withPending y = st.withPending y := rfl

@[simp] theorem State.g_withLowerLimit (st : State) (x : Word) : (st.withLowerLimit x).g = st.g := rfl
@[simp] theorem State.ssp_withLowerLimit (st : State) (x : Word) : (st.withLowerLimit x).ssp = st.ssp := rfl
@[simp] theorem State.usp_withLowerLimit (st : State) (x : Word) : (st.withLowerLimit x).usp = st.usp := rfl
@[simp] theorem State.pc_withLowerLimit (st : State) (x : Word) : (st.withLowerLimit x).pc = st.pc := rfl
@[simp] theorem State.flag_withLowerLimit (st : State) (x : Word) : (st.withLowerLimit x).flag = st.flag := rfl
@[simp] theorem State.halted_withLowerLimit (st : State) (x : Word) : (st.withLowerLimit x).halted = st.halted := rfl
@[simp] theorem State.pending_withLowerLimit (st : State) (x : Word) : (st.withLowerLimit x).pending = st.pending := rfl
@[simp] theorem State.lowerLimit_withLowerLimit (st : State) (x : Word) : (st.withLowerLimit x).lowerLimit = x := rfl
@[simp] theorem State.upperLimit_withLowerLimit (st : State) (x : Word) : (st.withLowerLimit x).upperLimit = st.upperLimit := rfl
@[simp] theorem State.mem_withLowerLimit (st : State) (x : Word) : (st.withLowerLimit x).mem = st.mem := rfl
@[simp] theorem State.ioTrace_withLowerLimit (st : State) (x : Word) : (st.withLowerLimit x).ioTrace = st.ioTrace := rfl
@[simp] theorem State.ioAnswers_withLowerLimit (st : State) (x : Word) : (st.withLowerLimit x).ioAnswers = st.ioAnswers := rfl
@[simp] theorem State.requests_withLowerLimit (st : State) (x : Word) : (st.withLowerLimit x).requests = st.requests := rfl
@[simp] theorem State.free_withLowerLimit (st : State) (x : Word) : (st.withLowerLimit x).free = st.free := rfl
@[simp] theorem State.withLowerLimit_self (st : State) : st.withLowerLimit st.lowerLimit = st := rfl
@[simp] theorem State.withLowerLimit_twice (st : State) (x y : Word) : (st.withLowerLimit x).withLowerLimit y = st.withLowerLimit y := rfl

@[simp] theorem State.g_withUpperLimit (st : State) (x : Word) : (st.withUpperLimit x).g = st.g := rfl
@[simp] theorem State.ssp_withUpperLimit (st : State) (x : Word) : (st.withUpperLimit x).ssp = st.ssp := rfl
@[simp] theorem State.usp_withUpperLimit (st : State) (x : Word) : (st.withUpperLimit x).usp = st.usp := rfl
@[simp] theorem State.pc_withUpperLimit (st : State) (x : Word) : (st.withUpperLimit x).pc = st.pc := rfl
@[simp] theorem State.flag_withUpperLimit (st : State) (x : Word) : (st.withUpperLimit x).flag = st.flag := rfl
@[simp] theorem State.halted_withUpperLimit (st : State) (x : Word) : (st.withUpperLimit x).halted = st.halted := rfl
@[simp] theorem State.pending_withUpperLimit (st : State) (x : Word) : (st.withUpperLimit x).pending = st.pending := rfl
@[simp] theorem State.lowerLimit_withUpperLimit (st : State) (x : Word) : (st.withUpperLimit x).lowerLimit = st.lowerLimit := rfl
@[simp] theorem State.upperLimit_withUpperLimit (st : State) (x : Word) : (st.withUpperLimit x).upperLimit = x := rfl
@[simp] theorem State.mem_withUpperLimit (st : State) (x : Word) : (st.withUpperLimit x).mem = st.mem := rfl
@[simp] theorem State.ioTrace_withUpperLimit (st : State) (x : Word) : (st.withUpperLimit x).ioTrace = st.ioTrace := rfl
@[simp] theorem State.ioAnswers_withUpperLimit (st : State) (x : Word) : (st.withUpperLimit x).ioAnswers = st.ioAnswers := rfl
@[simp] theorem State.requests_withUpperLimit (st : State) (x : Word) : (st.withUpperLimit x).requests = st.requests := rfl
@[simp] theorem State.free_withUpperLimit (st : State) (x : Word) : (st.withUpperLimit x).free = st.free := rfl
@[simp] theorem State.withUpperLimit_self (st : State) : st.withUpperLimit st.upperLimit = st := rfl
@[simp] theorem State.withUpperLimit_twice (st : State) (x y : Word) : (st.withUpperLimit x).withUpperLimit y = st.withUpperLimit y := rfl

@[simp] theorem State.g_withMem (st : State) (x : Memory) : (st.withMem x).g = st.g := rfl
@[simp] theorem State.ssp_withMem (st : State) (x : Memory) : (st.withMem x).ssp = st.ssp := rfl
@[simp] theorem State.usp_withMem (st : State) (x : Memory) : (st.withMem x).usp = st.usp := rfl
@[simp] theorem State.pc_withMem (st : State) (x : Memory) : (st.withMem x).pc = st.pc := rfl
@[simp] theorem State.flag_withMem (st : State) (x : Memory) : (st.withMem x).flag = st.flag := rfl
@[simp] theorem State.halted_withMem (st : State) (x : Memory) : (st.withMem x).halted = st.halted := rfl
@[simp] theorem State.pending_withMem (st : State) (x : Memory) : (st.withMem x).pending = st.pending := rfl
@[simp] theorem State.lowerLimit_withMem (st : State) (x : Memory) : (st.withMem x).lowerLimit = st.lowerLimit := rfl
@[simp] theorem State.upperLimit_withMem (st : State) (x : Memory) : (st.withMem x).upperLimit = st.upperLimit := rfl
@[simp] theorem State.mem_withMem (st : State) (x : Memory) : (st.withMem x).mem = x := rfl
@[simp] theorem State.ioTrace_withMem (st : State) (x : Memory) : (st.withMem x).ioTrace = st.ioTrace := rfl
@[simp] theorem State.ioAnswers_withMem (st : State) (x : Memory) : (st.withMem x).ioAnswers = st.ioAnswers := rfl
@[simp] theorem State.requests_withMem (st : State) (x : Memory) : (st.withMem x).requests = st.requests := rfl
@[simp] theorem State.free_withMem (st : State) (x : Memory) : (st.withMem x).free = st.free := rfl
@[simp] theorem State.withMem_self (st : State) : st.withMem st.mem = st := rfl
@[simp] theorem State.withMem_twice (st : State) (x y : Memory) : (st.withMem x).withMem y = st.withMem y := rfl

@[simp] theorem State.g_withIoTrace (st : State) (x : List IoEvent) : (st.withIoTrace x).g = st.g := rfl
@[simp] theorem State.ssp_withIoTrace (st : State) (x : List IoEvent) : (st.withIoTrace x).ssp = st.ssp := rfl
@[simp] theorem State.usp_withIoTrace (st : State) (x : List IoEvent) : (st.withIoTrace x).usp = st.usp := rfl
@[simp] theorem State.pc_withIoTrace (st : State) (x : List IoEvent) : (st.withIoTrace x).pc = st.pc := rfl
@[simp] theorem State.flag_withIoTrace (st : State) (x : List IoEvent) : (st.withIoTrace x).flag = st.flag := rfl
@[simp] theorem State.halted_withIoTrace (st : State) (x : List IoEvent) : (st.withIoTrace x).halted = st.halted := rfl
@[simp] theorem State.pending_withIoTrace (st : State) (x : List IoEvent) : (st.withIoTrace x).pending = st.pending := rfl
@[simp] theorem State.lowerLimit_withIoTrace (st : State) (x : List IoEvent) : (st.withIoTrace x).lowerLimit = st.lowerLimit := rfl
@[simp] theorem State.upperLimit_withIoTrace (st : State) (x : List IoEvent) : (st.withIoTrace x).upperLimit = st.upperLimit := rfl
@[simp] theorem State.mem_withIoTrace (st : State) (x : List IoEvent) : (st.withIoTrace x).mem = st.mem := rfl
@[simp] theorem State.ioTrace_withIoTrace (st : State) (x : List IoEvent) : (st.withIoTrace x).ioTrace = x := rfl
@[simp] theorem State.ioAnswers_withIoTrace (st : State) (x : List IoEvent) : (st.withIoTrace x).ioAnswers = st.ioAnswers := rfl
@[simp] theorem State.requests_withIoTrace (st : State) (x : List IoEvent) : (st.withIoTrace x).requests = st.requests := rfl
@[simp] theorem State.free_withIoTrace (st : State) (x : List IoEvent) : (st.withIoTrace x).free = st.free := rfl
@[simp] theorem State.withIoTrace_self (st : State) : st.withIoTrace st.ioTrace = st := rfl
@[simp] theorem State.withIoTrace_twice (st : State) (x y : List IoEvent) : (st.withIoTrace x).withIoTrace y = st.withIoTrace y := rfl

@[simp] theorem State.g_withIoAnswers (st : State) (x : List Word) : (st.withIoAnswers x).g = st.g := rfl
@[simp] theorem State.ssp_withIoAnswers (st : State) (x : List Word) : (st.withIoAnswers x).ssp = st.ssp := rfl
@[simp] theorem State.usp_withIoAnswers (st : State) (x : List Word) : (st.withIoAnswers x).usp = st.usp := rfl
@[simp] theorem State.pc_withIoAnswers (st : State) (x : List Word) : (st.withIoAnswers x).pc = st.pc := rfl
@[simp] theorem State.flag_withIoAnswers (st : State) (x : List Word) : (st.withIoAnswers x).flag = st.flag := rfl
@[simp] theorem State.halted_withIoAnswers (st : State) (x : List Word) : (st.withIoAnswers x).halted = st.halted := rfl
@[simp] theorem State.pending_withIoAnswers (st : State) (x : List Word) : (st.withIoAnswers x).pending = st.pending := rfl
@[simp] theorem State.lowerLimit_withIoAnswers (st : State) (x : List Word) : (st.withIoAnswers x).lowerLimit = st.lowerLimit := rfl
@[simp] theorem State.upperLimit_withIoAnswers (st : State) (x : List Word) : (st.withIoAnswers x).upperLimit = st.upperLimit := rfl
@[simp] theorem State.mem_withIoAnswers (st : State) (x : List Word) : (st.withIoAnswers x).mem = st.mem := rfl
@[simp] theorem State.ioTrace_withIoAnswers (st : State) (x : List Word) : (st.withIoAnswers x).ioTrace = st.ioTrace := rfl
@[simp] theorem State.ioAnswers_withIoAnswers (st : State) (x : List Word) : (st.withIoAnswers x).ioAnswers = x := rfl
@[simp] theorem State.requests_withIoAnswers (st : State) (x : List Word) : (st.withIoAnswers x).requests = st.requests := rfl
@[simp] theorem State.free_withIoAnswers (st : State) (x : List Word) : (st.withIoAnswers x).free = st.free := rfl
@[simp] theorem State.withIoAnswers_self (st : State) : st.withIoAnswers st.ioAnswers = st := rfl
@[simp] theorem State.withIoAnswers_twice (st : State) (x y : List Word) : (st.withIoAnswers x).withIoAnswers y = st.withIoAnswers y := rfl

@[simp] theorem State.g_withRequests (st : State) (x : List (BitVec 10)) : (st.withRequests x).g = st.g := rfl
@[simp] theorem State.ssp_withRequests (st : State) (x : List (BitVec 10)) : (st.withRequests x).ssp = st.ssp := rfl
@[simp] theorem State.usp_withRequests (st : State) (x : List (BitVec 10)) : (st.withRequests x).usp = st.usp := rfl
@[simp] theorem State.pc_withRequests (st : State) (x : List (BitVec 10)) : (st.withRequests x).pc = st.pc := rfl
@[simp] theorem State.flag_withRequests (st : State) (x : List (BitVec 10)) : (st.withRequests x).flag = st.flag := rfl
@[simp] theorem State.halted_withRequests (st : State) (x : List (BitVec 10)) : (st.withRequests x).halted = st.halted := rfl
@[simp] theorem State.pending_withRequests (st : State) (x : List (BitVec 10)) : (st.withRequests x).pending = st.pending := rfl
@[simp] theorem State.lowerLimit_withRequests (st : State) (x : List (BitVec 10)) : (st.withRequests x).lowerLimit = st.lowerLimit := rfl
@[simp] theorem State.upperLimit_withRequests (st : State) (x : List (BitVec 10)) : (st.withRequests x).upperLimit = st.upperLimit := rfl
@[simp] theorem State.mem_withRequests (st : State) (x : List (BitVec 10)) : (st.withRequests x).mem = st.mem := rfl
@[simp] theorem State.ioTrace_withRequests (st : State) (x : List (BitVec 10)) : (st.withRequests x).ioTrace = st.ioTrace := rfl
@[simp] theorem State.ioAnswers_withRequests (st : State) (x : List (BitVec 10)) : (st.withRequests x).ioAnswers = st.ioAnswers := rfl
@[simp] theorem State.requests_withRequests (st : State) (x : List (BitVec 10)) : (st.withRequests x).requests = x := rfl
@[simp] theorem State.free_withRequests (st : State) (x : List (BitVec 10)) : (st.withRequests x).free = st.free := rfl
@[simp] theorem State.withRequests_self (st : State) : st.withRequests st.requests = st := rfl
@[simp] theorem State.withRequests_twice (st : State) (x y : List (BitVec 10)) : (st.withRequests x).withRequests y = st.withRequests y := rfl

@[simp] theorem State.g_withFree (st : State) (x : Nat) : (st.withFree x).g = st.g := rfl
@[simp] theorem State.ssp_withFree (st : State) (x : Nat) : (st.withFree x).ssp = st.ssp := rfl
@[simp] theorem State.usp_withFree (st : State) (x : Nat) : (st.withFree x).usp = st.usp := rfl
@[simp] theorem State.pc_withFree (st : State) (x : Nat) : (st.withFree x).pc = st.pc := rfl
@[simp] theorem State.flag_withFree (st : State) (x : Nat) : (st.withFree x).flag = st.flag := rfl
@[simp] theorem State.halted_withFree (st : State) (x : Nat) : (st.withFree x).halted = st.halted := rfl
@[simp] theorem State.pending_withFree (st : State) (x : Nat) : (st.withFree x).pending = st.pending := rfl
@[simp] theorem State.lowerLimit_withFree (st : State) (x : Nat) : (st.withFree x).lowerLimit = st.lowerLimit := rfl
@[simp] theorem State.upperLimit_withFree (st : State) (x : Nat) : (st.withFree x).upperLimit = st.upperLimit := rfl
@[simp] theorem State.mem_withFree (st : State) (x : Nat) : (st.withFree x).mem = st.mem := rfl
@[simp] theorem State.ioTrace_withFree (st : State) (x : Nat) : (st.withFree x).ioTrace = st.ioTrace := rfl
@[simp] theorem State.ioAnswers_withFree (st : State) (x : Nat) : (st.withFree x).ioAnswers = st.ioAnswers := rfl
@[simp] theorem State.requests_withFree (st : State) (x : Nat) : (st.withFree x).requests = st.requests := rfl
@[simp] theorem State.free_withFree (st : State) (x : Nat) : (st.withFree x).free = x := rfl
@[simp] theorem State.withFree_self (st : State) : st.withFree st.free = st := rfl
@[simp] theorem State.withFree_twice (st : State) (x y : Nat) : (st.withFree x).withFree y = st.withFree y := rfl

end Sys2Proof.Machine
end

