-- ==== Sys2Proof/Laws/Memory.lean ====
section
/-! SUPPORT. The laws of the memory as data: a read after a write, the canonical form, words as two bytes. -/

namespace Sys2Proof.Machine

/-! ## Bytes and words -/

theorem toNat_wordOfBytes (hi lo : Byte) : (wordOfBytes hi lo).toNat = hi.toNat * 256 + lo.toNat := by
  have h : (wordOfBytes hi lo).toNat = hi.toNat <<< 8 ||| lo.toNat := BitVec.toNat_append hi lo
  rw [h, ← Nat.shiftLeft_add_eq_or_of_lt lo.isLt, Nat.shiftLeft_eq]

theorem toNat_highByte (w : Word) : (highByte w).toNat = w.toNat / 256 := by
  have h : (highByte w).toNat = (w.toNat >>> 8) % 2 ^ 8 := BitVec.extractLsb'_toNat 8 8 w
  rw [h, Nat.shiftRight_eq_div_pow]
  have := w.isLt
  omega

theorem toNat_lowByte (w : Word) : (lowByte w).toNat = w.toNat % 256 := by
  have h : (lowByte w).toNat = (w.toNat >>> 0) % 2 ^ 8 := BitVec.extractLsb'_toNat 0 8 w
  rw [h, Nat.shiftRight_zero]
  rfl

@[simp] theorem highByte_wordOfBytes (hi lo : Byte) : highByte (wordOfBytes hi lo) = hi := by
  apply BitVec.eq_of_toNat_eq
  rw [toNat_highByte, toNat_wordOfBytes]
  have := lo.isLt
  omega

@[simp] theorem lowByte_wordOfBytes (hi lo : Byte) : lowByte (wordOfBytes hi lo) = lo := by
  apply BitVec.eq_of_toNat_eq
  rw [toNat_lowByte, toNat_wordOfBytes]
  have := lo.isLt
  omega

@[simp] theorem wordOfBytes_high_low (w : Word) : wordOfBytes (highByte w) (lowByte w) = w := by
  apply BitVec.eq_of_toNat_eq
  rw [toNat_wordOfBytes, toNat_highByte, toNat_lowByte]
  omega

/-- The two bytes of an even address and the next are different ones. -/
theorem next_ne_self (a : Word) : (a + 1#16).toNat ≠ a.toNat := by
  rw [BitVec.toNat_add]
  have := a.isLt
  have h1 : (1#16).toNat = 1 := rfl
  omega

/-! ## Read after write -/

@[simp] theorem Memory.read_write_same (m : Memory) (a : Nat) (b : Byte) : (Memory.write m a b).read a = some b := by
  induction m with
  | nil => simp [Memory.write, Memory.read]
  | cons c rest ih =>
    obtain ⟨k, d⟩ := c
    unfold Memory.write
    split
    · simp [Memory.read]
    · split
      · simp [Memory.read]
      · rename_i h1 h2
        simp [Memory.read, ih, Ne.symm h2]

theorem Memory.read_write_ne (m : Memory) (a a' : Nat) (b : Byte) (h : a' ≠ a) :
    (Memory.write m a b).read a' = m.read a' := by
  induction m with
  | nil => simp [Memory.write, Memory.read, Ne.symm h]
  | cons c rest ih =>
    obtain ⟨k, d⟩ := c
    unfold Memory.write
    split
    · simp [Memory.read, Ne.symm h]
    · split
      · rename_i h1 h2
        simp [Memory.read, Ne.symm h, ← h2]
      · simp [Memory.read, ih]

/-- A byte write in one line: the byte written reads as written, every other byte as before. -/
theorem Memory.read_write (m : Memory) (a a' : Nat) (b : Byte) :
    (Memory.write m a b).read a' = if a' = a then some b else m.read a' := by
  split
  · next h => rw [h, Memory.read_write_same]
  · next h => exact Memory.read_write_ne m a a' b h

/-- A word write in one line, byte by byte (R65, R67). -/
theorem Memory.read_writeWord (m : Memory) (a : Word) (w : Word) (a' : Nat) :
    (Memory.writeWord m a w).read a' =
      if a' = (a + 1#16).toNat then some (lowByte w) else if a' = a.toNat then some (highByte w) else m.read a' := by
  simp [Memory.writeWord, Memory.read_write]

theorem Memory.read_writeWord_other (m : Memory) (a : Word) (w : Word) (a' : Nat) (h : a' ≠ a.toNat)
    (h' : a' ≠ (a + 1#16).toNat) : (Memory.writeWord m a w).read a' = m.read a' := by
  rw [Memory.read_writeWord, if_neg h', if_neg h]

@[simp] theorem Memory.readWord_writeWord (m : Memory) (a : Word) (w : Word) :
    (Memory.writeWord m a w).readWord a = some w := by
  rw [Memory.readWord, Memory.read_writeWord, Memory.read_writeWord, if_neg (Ne.symm (next_ne_self a)), if_pos rfl, if_pos rfl]
  simp

/-- Two aligned words that are not the same word do not overlap. -/
theorem word_disjoint (a b : Word) (ha : a.getLsbD 0 = false) (hb : b.getLsbD 0 = false) (h : a ≠ b) :
    a.toNat ≠ b.toNat ∧ a.toNat ≠ (b + 1#16).toNat ∧ (a + 1#16).toNat ≠ b.toNat ∧ (a + 1#16).toNat ≠ (b + 1#16).toNat := by
  have hn : a.toNat ≠ b.toNat := fun e => h (BitVec.eq_of_toNat_eq e)
  have hea : a.toNat % 2 = 0 := by
    rw [BitVec.getLsbD, Nat.testBit_zero] at ha
    simpa using ha
  have heb : b.toNat % 2 = 0 := by
    rw [BitVec.getLsbD, Nat.testBit_zero] at hb
    simpa using hb
  have h1 : (1#16).toNat = 1 := rfl
  have := a.isLt
  have := b.isLt
  refine ⟨hn, ?_, ?_, ?_⟩ <;> simp only [BitVec.toNat_add, h1] <;> omega

theorem Memory.readWord_writeWord_other (m : Memory) (a b : Word) (w : Word) (ha : a.getLsbD 0 = false)
    (hb : b.getLsbD 0 = false) (h : a ≠ b) : (Memory.writeWord m a w).readWord b = m.readWord b := by
  obtain ⟨h1, h2, h3, h4⟩ := word_disjoint b a hb ha (Ne.symm h)
  simp only [Memory.readWord, Memory.read_writeWord_other m a w _ h1 h2, Memory.read_writeWord_other m a w _ h3 h4]

/-! ## The canonical form -/

theorem Memory.mem_write {m : Memory} {a : Nat} {b : Byte} {c : Host.Cell} (h : c ∈ Memory.write m a b) :
    c = (a, b) ∨ c ∈ m := by
  induction m with
  | nil => simpa [Memory.write] using h
  | cons d rest ih =>
    obtain ⟨k, e⟩ := d
    unfold Memory.write at h
    split at h
    · simpa using h
    · split at h
      · rcases List.mem_cons.1 h with h | h
        · exact .inl h
        · exact .inr (List.mem_cons_of_mem _ h)
      · rcases List.mem_cons.1 h with h | h
        · exact .inr (h ▸ List.mem_cons_self)
        · rcases ih h with h | h
          · exact .inl h
          · exact .inr (List.mem_cons_of_mem _ h)

theorem Memory.write_sorted (m : Memory) (a : Nat) (b : Byte) (h : (m.map Prod.fst).Pairwise (· < ·)) :
    ((Memory.write m a b).map Prod.fst).Pairwise (· < ·) := by
  induction m with
  | nil => simp [Memory.write]
  | cons d rest ih =>
    obtain ⟨k, e⟩ := d
    rw [List.map_cons, List.pairwise_cons] at h
    unfold Memory.write
    split
    · next hlt =>
      rw [List.map_cons, List.map_cons, List.pairwise_cons]
      refine ⟨?_, List.pairwise_cons.2 h⟩
      intro x hx
      rcases List.mem_cons.1 hx with rfl | hx
      · exact hlt
      · exact Nat.lt_trans hlt (h.1 x hx)
    · split
      · next heq => subst heq; exact List.pairwise_cons.2 h
      · next hnlt hne =>
        rw [List.map_cons, List.pairwise_cons]
        refine ⟨?_, ih h.2⟩
        intro x hx
        obtain ⟨c, hc, rfl⟩ := List.mem_map.1 hx
        rcases Memory.mem_write hc with rfl | hc
        · show k < a
          omega
        · exact h.1 _ (List.mem_map_of_mem hc)

/-- A byte write keeps the canonical form. -/
theorem Memory.wf_write {m : Memory} (h : m.wf) (a : Word) (b : Byte) : (Memory.write m a.toNat b).wf := by
  refine ⟨Memory.write_sorted m _ b h.1, fun c hc => ?_⟩
  rcases Memory.mem_write hc with rfl | hc
  · exact a.isLt
  · exact h.2 c hc

/-- A word write keeps the canonical form. -/
theorem Memory.wf_writeWord {m : Memory} (h : m.wf) (a w : Word) : (Memory.writeWord m a w).wf :=
  Memory.wf_write (Memory.wf_write h a _) (a + 1#16) _

/-- An image given from outside keeps the canonical form. -/
theorem Memory.wf_load {m : Memory} (h : m.wf) (a : Word) (bytes : List Byte) : (Memory.load m a bytes).wf := by
  induction bytes generalizing m a with
  | nil => exact h
  | cons b rest ih => exact ih (Memory.wf_write h a b) (a + 1#16)

/-- The memory after reset has the canonical form. -/
theorem Memory.wf_reset : State.reset.mem.wf := by decide

theorem Memory.read_none_of_lt {m : Memory} {a : Nat} (h : ∀ c ∈ m, a < c.1) : m.read a = none := by
  induction m with
  | nil => rfl
  | cons c rest ih =>
    have := h c List.mem_cons_self
    simp [Memory.read, Nat.ne_of_gt this, ih fun d hd => h d (List.mem_cons_of_mem _ hd)]

/-- In canonical form, memories that read alike are equal data. -/
theorem Memory.ext_of_read {m n : Memory} (hm : m.wf) (hn : n.wf) (h : ∀ a, m.read a = n.read a) : m = n := by
  obtain ⟨hm, -⟩ := hm
  obtain ⟨hn, -⟩ := hn
  induction m generalizing n with
  | nil =>
    cases n with
    | nil => rfl
    | cons d _ => have := h d.1; simp [Memory.read] at this
  | cons c m ih =>
    rw [List.map_cons, List.pairwise_cons] at hm
    cases n with
    | nil => have := h c.1; simp [Memory.read] at this
    | cons d n =>
      rw [List.map_cons, List.pairwise_cons] at hn
      have lt_m : ∀ x ∈ m, c.1 < x.1 := fun x hx => hm.1 _ (List.mem_map_of_mem hx)
      have lt_n : ∀ x ∈ n, d.1 < x.1 := fun x hx => hn.1 _ (List.mem_map_of_mem hx)
      have hcd : c.1 = d.1 := by
        rcases Nat.lt_trichotomy c.1 d.1 with hlt | heq | hgt
        · have := h c.1
          have e : Memory.read n c.1 = none := Memory.read_none_of_lt fun x hx => Nat.lt_trans hlt (lt_n x hx)
          simp [Memory.read, Nat.ne_of_gt hlt, e] at this
        · exact heq
        · have := h d.1
          have e : Memory.read m d.1 = none := Memory.read_none_of_lt fun x hx => Nat.lt_trans hgt (lt_m x hx)
          simp [Memory.read, Nat.ne_of_gt hgt, e] at this
      have hb : c.2 = d.2 := by
        have := h c.1
        simpa [Memory.read, hcd] using this
      have hmn : m = n := by
        refine ih (fun a => ?_) hm.2 hn.2
        by_cases ha : a = c.1
        · rw [ha, Memory.read_none_of_lt lt_m, hcd, Memory.read_none_of_lt lt_n]
        · have := h a
          simpa [Memory.read, Ne.symm ha, ← hcd] using this
      rw [hmn, Prod.ext hcd hb]

end Sys2Proof.Machine
end

