-- ==== Sys2Proof/Laws/Registers.lean ====
section
/-! SUPPORT. The laws of the registers: a read after a write, and what a write leaves. -/

namespace Sys2Proof.Machine

/-! ## Reads after writes -/

@[simp] theorem State.get_set_same (st : State) (x : Reg) (w : Word) : (st.set x w).get x = w := by
  cases x <;> simp [State.set, State.get]

theorem State.get_set_ne (st : State) (x y : Reg) (w : Word) (h : y ≠ x) : (st.set x w).get y = st.get y := by
  cases x <;> cases y <;> simp [State.set, State.get] at *
  rename_i n m
  exact Vector.getElem_set_ne _ _ (fun e => h (Fin.ext e).symm)

/-- Another register after a write, in one line. -/
theorem State.get_set (st : State) (x y : Reg) (w : Word) : (st.set x w).get y = if y = x then w else st.get y := by
  split
  · next h => rw [h, State.get_set_same]
  · next h => exact State.get_set_ne st x y w h

/-! ## What a register write leaves -/

@[simp] theorem State.flag_set (st : State) (x : Reg) (w : Word) : (st.set x w).flag = st.flag := by cases x <;> rfl
@[simp] theorem State.halted_set (st : State) (x : Reg) (w : Word) : (st.set x w).halted = st.halted := by cases x <;> rfl
@[simp] theorem State.pending_set (st : State) (x : Reg) (w : Word) : (st.set x w).pending = st.pending := by cases x <;> rfl
@[simp] theorem State.lowerLimit_set (st : State) (x : Reg) (w : Word) : (st.set x w).lowerLimit = st.lowerLimit := by
  cases x <;> rfl
@[simp] theorem State.upperLimit_set (st : State) (x : Reg) (w : Word) : (st.set x w).upperLimit = st.upperLimit := by
  cases x <;> rfl
@[simp] theorem State.mem_set (st : State) (x : Reg) (w : Word) : (st.set x w).mem = st.mem := by cases x <;> rfl
@[simp] theorem State.ioTrace_set (st : State) (x : Reg) (w : Word) : (st.set x w).ioTrace = st.ioTrace := by cases x <;> rfl
@[simp] theorem State.ioAnswers_set (st : State) (x : Reg) (w : Word) : (st.set x w).ioAnswers = st.ioAnswers := by
  cases x <;> rfl
@[simp] theorem State.requests_set (st : State) (x : Reg) (w : Word) : (st.set x w).requests = st.requests := by
  cases x <;> rfl
@[simp] theorem State.free_set (st : State) (x : Reg) (w : Word) : (st.set x w).free = st.free := by cases x <;> rfl
@[simp] theorem State.reg_set (st : State) (x : Reg) (w : Word) (r : RegNum) : (st.set x w).reg r = st.reg r := by
  simp [State.reg]

/-- A register write is undone by writing the old content back. -/
@[simp] theorem State.set_get (st : State) (x : Reg) : st.set x (st.get x) = st := by
  cases x <;> simp [State.set, State.get, State.withG]

/-! ## Registers after updates of other fields -/

@[simp] theorem State.get_withFlag (st : State) (f : Flag) (x : Reg) : (st.withFlag f).get x = st.get x := by cases x <;> rfl
@[simp] theorem State.get_withVcsz (st : State) (r : Vcsz) (x : Reg) : (st.withVcsz r).get x = st.get x := by cases x <;> rfl
@[simp] theorem State.get_withMem (st : State) (m : Memory) (x : Reg) : (st.withMem m).get x = st.get x := by cases x <;> rfl
@[simp] theorem State.get_withHalted (st : State) (b : Bool) (x : Reg) : (st.withHalted b).get x = st.get x := by
  cases x <;> rfl
@[simp] theorem State.get_withPending (st : State) (b : BitVec 10) (x : Reg) : (st.withPending b).get x = st.get x := by
  cases x <;> rfl
@[simp] theorem State.get_withRequests (st : State) (b : List (BitVec 10)) (x : Reg) :
    (st.withRequests b).get x = st.get x := by cases x <;> rfl
@[simp] theorem State.get_withFree (st : State) (n : Nat) (x : Reg) : (st.withFree n).get x = st.get x := by cases x <;> rfl
@[simp] theorem State.get_withIoTrace (st : State) (t : List IoEvent) (x : Reg) : (st.withIoTrace t).get x = st.get x := by
  cases x <;> rfl
@[simp] theorem State.get_withIoAnswers (st : State) (t : List Word) (x : Reg) : (st.withIoAnswers t).get x = st.get x := by
  cases x <;> rfl
@[simp] theorem State.get_withLowerLimit (st : State) (w : Word) (x : Reg) : (st.withLowerLimit w).get x = st.get x := by
  cases x <;> rfl
@[simp] theorem State.get_withUpperLimit (st : State) (w : Word) (x : Reg) : (st.withUpperLimit w).get x = st.get x := by
  cases x <;> rfl

/-- A write of PC is a write of the register PC. -/
theorem State.withPc_eq_set (st : State) (w : Word) : st.withPc w = st.set .pc w := rfl

/-! ## Register numbers -/

@[simp] theorem resolve_sp (p : Bool) : resolve p spNum = if p then .ssp else .usp := rfl
@[simp] theorem resolve_usp (p : Bool) : resolve p 14#4 = .usp := rfl
@[simp] theorem resolve_pc (p : Bool) : resolve p 15#4 = .pc := rfl
@[simp] theorem resolve_fp (p : Bool) : resolve p fpNum = .g 12 := rfl

/-- In user mode no register number selects SSP (R23, R342). -/
theorem resolve_user_ne_ssp (r : RegNum) : resolve false r ≠ .ssp := by
  unfold resolve
  split
  · simp
  · split
    · simp
    · split <;> simp

/-- The two registers of a pair are different ones (R201). -/
theorem resolve_pair_ne (p : Bool) (rd : RegNum) (h : rd.getLsbD 0 = false) : resolve p (rd + 1#4) ≠ resolve p rd := by
  revert p rd
  decide

/-! ## V, C, S and Z -/

@[simp] theorem State.flag_withVcsz (st : State) (r : Vcsz) :
    (st.withVcsz r).flag = { st.flag with v := r.v, c := r.c, s := r.s, z := r.z } := rfl
@[simp] theorem State.mem_withVcsz (st : State) (r : Vcsz) : (st.withVcsz r).mem = st.mem := rfl
@[simp] theorem State.halted_withVcsz (st : State) (r : Vcsz) : (st.withVcsz r).halted = st.halted := rfl
@[simp] theorem State.pending_withVcsz (st : State) (r : Vcsz) : (st.withVcsz r).pending = st.pending := rfl
@[simp] theorem State.lowerLimit_withVcsz (st : State) (r : Vcsz) : (st.withVcsz r).lowerLimit = st.lowerLimit := rfl
@[simp] theorem State.upperLimit_withVcsz (st : State) (r : Vcsz) : (st.withVcsz r).upperLimit = st.upperLimit := rfl
@[simp] theorem State.ioTrace_withVcsz (st : State) (r : Vcsz) : (st.withVcsz r).ioTrace = st.ioTrace := rfl
@[simp] theorem State.ioAnswers_withVcsz (st : State) (r : Vcsz) : (st.withVcsz r).ioAnswers = st.ioAnswers := rfl
@[simp] theorem State.requests_withVcsz (st : State) (r : Vcsz) : (st.withVcsz r).requests = st.requests := rfl
@[simp] theorem State.free_withVcsz (st : State) (r : Vcsz) : (st.withVcsz r).free = st.free := rfl

/-! ## FLAG as a word -/

/-- FLAG survives being pushed and popped (R28, R29). -/
@[simp] theorem Flag.ofWord_toWord (f : Flag) : Flag.ofWord f.toWord = f := by
  obtain ⟨e, p, v, c, s, z⟩ := f
  revert e p v c s z
  decide

end Sys2Proof.Machine
end

