-- ==== Sys2Proof/Laws/Access.lean ====
section
/-! SUPPORT. For each shared operation over memory, stack, traps and ports: everything it can do, said once. -/

namespace Sys2Proof.Machine

/-! ## Accesses in sequence -/

theorem Access.map_eq_ok {α β : Type} {f : α → β} {x : Access α} {b : β} : x.map f = .ok b ↔ ∃ a, x = .ok a ∧ f a = b := by
  cases x <;> simp [Access.map]

theorem Access.bind_eq_ok {α β : Type} {f : α → Access β} {x : Access α} {b : β} :
    x.bind f = .ok b ↔ ∃ a, x = .ok a ∧ f a = .ok b := by
  cases x <;> simp [Access.bind]

/-- What an instruction does with an access, when it answers a next state: it went on with the value, or took the exception. -/
theorem Access.run_next {α : Type} {x : Access α} {st t : State} {k : α → Result} (h : x.run st k = .next t) :
    (∃ a, x = .ok a ∧ k a = .next t) ∨ ∃ e, x = .raised e ∧ raise e st = .next t := by
  cases x with
  | ok a => exact .inl ⟨a, rfl, h⟩
  | raised e => exact .inr ⟨e, rfl, h⟩
  | fault r => exact nomatch h
  | refused r => exact nomatch h

@[simp] theorem Access.run_ok {α : Type} (a : α) (st : State) (k : α → Result) : (Access.ok a).run st k = k a := rfl
@[simp] theorem Access.run_raised {α : Type} (e : Exc) (st : State) (k : α → Result) :
    (Access.raised e : Access α).run st k = raise e st := rfl

/-- An access of trap entry, when it answers a next state: it went on with the value. -/
theorem Access.inTrap_next {α : Type} {x : Access α} {t : State} {k : α → Result} (h : x.inTrap k = .next t) :
    ∃ a, x = .ok a ∧ k a = .next t := by
  cases x with
  | ok a => exact ⟨a, rfl, h⟩
  | raised e => exact nomatch h
  | fault r => exact nomatch h
  | refused r => exact nomatch h

/-! ## Checks, reads and writes -/

/-- A word access is allowed exactly when the address is even, the protection does not reject it and the region has the access. -/
theorem State.checkWord_ok {st : State} {kind : AccessKind} {a : Word} :
    st.checkWord kind a = .ok () ↔
      a.getLsbD 0 = false ∧ st.rejects kind a = false ∧ regionOf a ≠ .reserved ∧ (kind = .write → regionOf a ≠ .rom) := by
  unfold State.checkWord
  cases a.getLsbD 0 <;> cases st.rejects kind a <;> cases regionOf a <;> cases kind <;> simp

/-- A byte access is allowed exactly when the protection does not reject it and the region has the access. -/
theorem State.checkByte_ok {st : State} {kind : AccessKind} {a : Word} :
    st.checkByte kind a = .ok () ↔
      st.rejects kind a = false ∧ regionOf a ≠ .reserved ∧ (kind = .write → regionOf a ≠ .rom) := by
  unfold State.checkByte
  cases st.rejects kind a <;> cases regionOf a <;> cases kind <;> simp

/-- The protection never rejects in privileged mode (R345). -/
theorem State.rejects_privileged {st : State} (h : st.flag.p = true) (kind : AccessKind) (a : Word) :
    st.rejects kind a = false := by
  simp [State.rejects, h]

theorem foundValue_ok {α : Type} {x : Option α} {a : α} : foundValue x = .ok a ↔ x = some a := by
  cases x <;> simp [foundValue]

/-- A word read that succeeds: the access is allowed and both bytes hold a value. -/
theorem State.readWord_ok {st : State} {kind : AccessKind} {a w : Word} :
    st.readWord kind a = .ok w ↔ st.checkWord kind a = .ok () ∧ st.mem.readWord a = some w := by
  cases h : st.checkWord kind a <;> simp [State.readWord, Access.bind, foundValue_ok, h]

/-- A byte read that succeeds. -/
theorem State.readByte_ok {st : State} {a : Word} {b : Byte} :
    st.readByte a = .ok b ↔ st.checkByte .read a = .ok () ∧ st.mem.read a.toNat = some b := by
  cases h : st.checkByte .read a <;> simp [State.readByte, Access.bind, foundValue_ok, h]

/-- A word write that succeeds changes the memory and nothing else. -/
theorem State.writeWord_ok {st t : State} {a w : Word} :
    st.writeWord a w = .ok t ↔ st.checkWord .write a = .ok () ∧ t = st.withMem (st.mem.writeWord a w) := by
  cases h : st.checkWord .write a <;> simp [State.writeWord, Access.map, h, eq_comm]

/-- A byte write that succeeds changes the memory and nothing else. -/
theorem State.writeByte_ok {st t : State} {a : Word} {b : Byte} :
    st.writeByte a b = .ok t ↔ st.checkByte .write a = .ok () ∧ t = st.withMem (st.mem.write a.toNat b) := by
  cases h : st.checkByte .write a <;> simp [State.writeByte, Access.map, h, eq_comm]

/-! ## The stack -/

/-- A push that succeeds: the word at SP - 2, and SP there (R280). -/
theorem State.push_ok {st t : State} {w : Word} :
    st.push w = .ok t ↔ st.checkWord .write (st.x spNum - 2#16) = .ok () ∧
      t = (st.withMem (st.mem.writeWord (st.x spNum - 2#16) w)).setX spNum (st.x spNum - 2#16) := by
  simp only [State.push, Access.map_eq_ok, State.writeWord_ok]
  constructor
  · rintro ⟨a, ⟨h, rfl⟩, rfl⟩
    exact ⟨h, rfl⟩
  · rintro ⟨h, rfl⟩
    exact ⟨_, ⟨h, rfl⟩, rfl⟩

/-- A pop that succeeds: the word at SP, and SP past it (R280). -/
theorem State.pop_ok {st t : State} {w : Word} :
    st.pop = .ok (w, t) ↔ st.checkWord .read (st.x spNum) = .ok () ∧ st.mem.readWord (st.x spNum) = some w ∧
      t = st.setX spNum (st.x spNum + 2#16) := by
  simp only [State.pop, Access.map_eq_ok, State.readWord_ok, Prod.mk.injEq]
  constructor
  · rintro ⟨a, ⟨h, h'⟩, rfl, rfl⟩
    exact ⟨h, h', rfl⟩
  · rintro ⟨h, h', rfl⟩
    exact ⟨_, ⟨h, h'⟩, rfl, rfl⟩

/-! ## Traps -/

/-- The state that trap entry leaves (R335): the two pushes on SSP, the mode, the request acknowledged, PC from the vector. -/
def trapped (c : Cause) (retpc handler : Word) (st : State) : State :=
  (((((st.withMem ((st.mem.writeWord (st.ssp - 2#16) retpc).writeWord (st.ssp - 2#16 - 2#16) st.flag.toWord)).withSsp
    (st.ssp - 2#16 - 2#16)).withFlag { st.flag with p := true, e := false }).acknowledge c).withPc handler)

/-- Trap entry that answers a next state: SSP - 2 and SSP - 4 are even addresses the machine may write, and PC is the word found at the
vector. -/
theorem trapEntry_next {c : Cause} {retpc : Word} {st t : State} (h : trapEntry c retpc st = .next t) :
    st.enterSystem.checkWord .write (st.ssp - 2#16) = .ok () ∧
    st.enterSystem.checkWord .write (st.ssp - 2#16 - 2#16) = .ok () ∧
    ∃ handler, ((st.mem.writeWord (st.ssp - 2#16) retpc).writeWord (st.ssp - 2#16 - 2#16) st.flag.toWord).readWord c.vector =
        some handler ∧ t = trapped c retpc handler st := by
  unfold trapEntry at h
  obtain ⟨st1, h1, h⟩ := Access.inTrap_next h
  obtain ⟨st2, h2, h⟩ := Access.inTrap_next h
  obtain ⟨handler, h3, h⟩ := Access.inTrap_next h
  obtain ⟨hc1, rfl⟩ := State.push_ok.1 h1
  obtain ⟨hc2, rfl⟩ := State.push_ok.1 h2
  obtain ⟨-, hm⟩ := State.readWord_ok.1 h3
  refine ⟨hc1, ?_, handler, ?_, ?_⟩
  · exact hc2
  · cases c <;> exact hm
  · injection h with h
    subst h
    cases c <;> rfl

/-- Trap entry succeeds when its two pushes are allowed and the vector holds a word the machine may read. -/
theorem trapEntry_eq {c : Cause} {retpc handler : Word} {st : State}
    (h1 : st.enterSystem.checkWord .write (st.ssp - 2#16) = .ok ())
    (h2 : st.enterSystem.checkWord .write (st.ssp - 2#16 - 2#16) = .ok ())
    (h3 : ((st.mem.writeWord (st.ssp - 2#16) retpc).writeWord (st.ssp - 2#16 - 2#16) st.flag.toWord).readWord c.vector =
      some handler) :
    trapEntry c retpc st = .next (trapped c retpc handler st) := by
  have hv : c.vector.getLsbD 0 = false ∧ regionOf c.vector = .vectors := by
    cases c with
    | interrupt n => clear h3; revert n; decide
    | exception e => cases e <;> decide
  have p1 : st.enterSystem.push retpc = .ok _ := State.push_ok.2 ⟨h1, rfl⟩
  unfold trapEntry
  rw [p1]
  simp only [Access.inTrap]
  have p2 := State.push_ok (st := (st.enterSystem.withMem (st.enterSystem.mem.writeWord (st.enterSystem.x spNum - 2#16)
    retpc)).setX spNum (st.enterSystem.x spNum - 2#16)) (w := st.flag.toWord) |>.2 ⟨h2, rfl⟩
  rw [p2]
  simp only []
  rw [State.readWord_ok.2 ⟨State.checkWord_ok.2 ⟨hv.1, ?_, by rw [hv.2]; decide, by rw [hv.2]; decide⟩, ?_⟩]
  · cases c <;> rfl
  · exact State.rejects_privileged (by cases c <;> rfl) _ _
  · cases c <;> exact h3

/-- A trap return that succeeds, from privileged mode: FLAG and PC from the two words at SSP, SSP past them (R284). -/
theorem State.trapReturn_ok {st t : State} (hp : st.flag.p = true) (h : st.trapReturn = .ok t) :
    ∃ f w, st.mem.readWord st.ssp = some f ∧ st.mem.readWord (st.ssp + 2#16) = some w ∧
      st.checkWord .read st.ssp = .ok () ∧ st.checkWord .read (st.ssp + 2#16) = .ok () ∧
      t = ((st.withSsp (st.ssp + 2#16 + 2#16)).withFlag (Flag.ofWord f)).withPc w := by
  have hx : ∀ s : State, s.flag.p = true → s.x spNum = s.ssp := by
    intro s hs
    simp [State.x, State.reg, hs, State.get]
  have hs : ∀ (s : State) (v : Word), s.flag.p = true → s.setX spNum v = s.withSsp v := by
    intro s v hs
    simp [State.setX, State.reg, hs, State.set]
  obtain ⟨⟨f, st1⟩, h1, h⟩ := Access.bind_eq_ok.1 h
  obtain ⟨⟨w, st2⟩, h2, rfl⟩ := Access.map_eq_ok.1 h
  obtain ⟨c1, m1, rfl⟩ := State.pop_ok.1 h1
  rw [hx st hp, hs _ _ hp] at h2
  obtain ⟨c2, m2, rfl⟩ := State.pop_ok.1 h2
  rw [hx st hp] at c1 m1
  have hp' : (st.withSsp (st.ssp + 2#16)).flag.p = true := hp
  rw [hx _ hp'] at c2 m2
  refine ⟨f, w, m1, m2, c1, c2, ?_⟩
  simp only [hx _ hp', hs _ _ hp']
  rfl

/-! ## Privilege -/

/-- What a gated instruction does, when it answers a next state. -/
theorem gated_next {o : PrivOp} {st t : State} {k : Result} (h : gated o st k = .next t) :
    (st.flag.p = true ∧ k = .next t) ∨ (st.flag.p = false ∧ raise .privilegeViolation st = .next t) := by
  cases hp : st.flag.p with
  | true => exact .inl ⟨rfl, by simpa [gated, hp] using h⟩
  | false => refine .inr ⟨rfl, ?_⟩; cases o <;> simpa [gated, hp, privSet] using h

/-! ## The boundary -/

/-- Receiving the environment's requests changes `pending` and `requests` only. -/
theorem State.receive_eq (st : State) :
    st.receive = (st.withPending st.receive.pending).withRequests st.requests.tail := by
  unfold State.receive
  split
  · next h => cases st; simp_all [State.withPending, State.withRequests]
  · next r rest h => simp [h, State.withPending, State.withRequests]

/-- An interrupt is accepted only when E = 1, from a pending source; only the free counter can change before its trap entry (R331). -/
theorem State.acceptInterrupt_some {st st' : State} {n : Fin 10} (h : st.acceptInterrupt = some (n, st')) :
    st.flag.e = true ∧ st.pending.getLsbD n.val = true ∧ st' = st.withFree st'.free := by
  unfold State.acceptInterrupt at h
  have key : ∀ l : List (Fin 10), l = st.pendingSources → n ∈ l → st.pending.getLsbD n.val = true := by
    intro l hl hn
    rw [hl] at hn
    exact (List.mem_filter.1 hn).2
  split at h
  · next he =>
    refine ⟨he, ?_⟩
    split at h
    · exact nomatch h
    · next m hl =>
      simp only [Option.some.injEq, Prod.mk.injEq] at h
      obtain ⟨rfl, rfl⟩ := h
      exact ⟨key _ hl.symm List.mem_cons_self, rfl⟩
    · next a b rest hl =>
      simp only [Option.some.injEq, Prod.mk.injEq] at h
      obtain ⟨rfl, rfl⟩ := h
      refine ⟨?_, rfl⟩
      refine key _ hl.symm ?_
      have hlt : Config.freeChoice st.free % (a :: b :: rest).length < (a :: b :: rest).length :=
        Nat.mod_lt _ (by simp)
      rw [List.getD_eq_getElem _ _ hlt]
      exact List.getElem_mem hlt
  · exact nomatch h

/-! ## The I/O space -/

/-- An answer of the environment changes `ioAnswers` or the free counter only. -/
theorem State.answer_eq (st : State) : st.answer.2 = (st.withIoAnswers st.answer.2.ioAnswers).withFree st.answer.2.free := by
  unfold State.answer
  split
  · rfl
  · next h => cases st; simp_all [State.withIoAnswers, State.withFree]

/-- An I/O read that succeeds: its value is what the port delivers of the environment's answer, and the access is recorded (R350). -/
theorem State.ioRead_ok {st t : State} {port : Byte} {width : Nat} {v : Word} (h : st.ioRead port width = .ok (v, t)) :
    (width = 2 → port.getLsbD 0 = false) ∧
    v = (if width = 2 then shapeWord port st.answer.1 else shapeByte port st.answer.1) ∧
    t = st.answer.2.record (.input port (if width = 2 then 2 else 1) v) := by
  unfold State.ioRead at h
  split at h
  · split at h
    · exact nomatch h
    · next hw hp =>
      simp only [Access.ok.injEq, Prod.mk.injEq] at h
      obtain ⟨rfl, rfl⟩ := h
      simp_all
  · next hw =>
    simp only [Access.ok.injEq, Prod.mk.injEq] at h
    obtain ⟨rfl, rfl⟩ := h
    simp_all

/-- The limit registers are all that a word write of a port can change beside the record. -/
theorem State.limitsWord_eq (st : State) (port : Byte) (w : Word) :
    st.limitsWord port w = (st.withLowerLimit (st.limitsWord port w).lowerLimit).withUpperLimit
      (st.limitsWord port w).upperLimit := by
  unfold State.limitsWord
  split <;> rfl

/-- The limit registers are all that a byte write of a port can change beside the record. -/
theorem State.limitsByte_eq (st : State) (port b : Byte) :
    st.limitsByte port b = (st.withLowerLimit (st.limitsByte port b).lowerLimit).withUpperLimit
      (st.limitsByte port b).upperLimit := by
  unfold State.limitsByte
  split <;> rfl

/-- An I/O write that succeeds: the limit registers as the port says, and the access recorded (R271, R350). -/
theorem State.ioWrite_ok {st t : State} {port : Byte} {width : Nat} {w : Word} (h : st.ioWrite port width w = .ok t) :
    (width = 2 → port.getLsbD 0 = false) ∧
    t = if width = 2 then (st.limitsWord port w).record (.output port 2 w)
      else (st.limitsByte port (lowByte w)).record (.output port 1 ((lowByte w).setWidth 16)) := by
  unfold State.ioWrite at h
  split at h
  · split at h
    · exact nomatch h
    · simp_all
  · simp_all

end Sys2Proof.Machine
end

