-- ==== Sys2Proof/Laws/PerInstr.lean ====
section
/-! SUPPORT. Facts about every instruction as syntax, one lemma per constructor of `Instr`. -/

namespace Sys2Proof.Laws

/-- The view of an instruction names it: `Instr.ofView` gives it back. -/
def ViewRoundTrip.Statement (i : Instr) : Prop := Instr.ofView i.view = i

theorem ViewRoundTrip.no : ViewRoundTrip.Statement (.no) := rfl
theorem ViewRoundTrip.ldDir (rd : RegNum) (dsp : Word) : ViewRoundTrip.Statement (.ldDir rd dsp) := rfl
theorem ViewRoundTrip.ldIdx (rd : RegNum) (dsp : Word) (rx : RegNum) : ViewRoundTrip.Statement (.ldIdx rd dsp rx) := rfl
theorem ViewRoundTrip.ldImm (rd : RegNum) (imm : Word) : ViewRoundTrip.Statement (.ldImm rd imm) := rfl
theorem ViewRoundTrip.ldFp (rd : RegNum) (d4 : BitVec 4) : ViewRoundTrip.Statement (.ldFp rd d4) := rfl
theorem ViewRoundTrip.ldReg (rd : RegNum) (rs : RegNum) : ViewRoundTrip.Statement (.ldReg rd rs) := rfl
theorem ViewRoundTrip.ldImm4 (rd : RegNum) (i4 : BitVec 4) : ViewRoundTrip.Statement (.ldImm4 rd i4) := rfl
theorem ViewRoundTrip.ldInd (rd : RegNum) (rx : RegNum) : ViewRoundTrip.Statement (.ldInd rd rx) := rfl
theorem ViewRoundTrip.ldByte (rd : RegNum) (rx : RegNum) : ViewRoundTrip.Statement (.ldByte rd rx) := rfl
theorem ViewRoundTrip.ldFlag (rd : RegNum) : ViewRoundTrip.Statement (.ldFlag rd) := rfl
theorem ViewRoundTrip.stDir (rd : RegNum) (dsp : Word) : ViewRoundTrip.Statement (.stDir rd dsp) := rfl
theorem ViewRoundTrip.stIdx (rd : RegNum) (dsp : Word) (rx : RegNum) : ViewRoundTrip.Statement (.stIdx rd dsp rx) := rfl
theorem ViewRoundTrip.stFp (rd : RegNum) (d4 : BitVec 4) : ViewRoundTrip.Statement (.stFp rd d4) := rfl
theorem ViewRoundTrip.stInd (rd : RegNum) (rx : RegNum) : ViewRoundTrip.Statement (.stInd rd rx) := rfl
theorem ViewRoundTrip.stByte (rd : RegNum) (rx : RegNum) : ViewRoundTrip.Statement (.stByte rd rx) := rfl
theorem ViewRoundTrip.addDir (rd : RegNum) (dsp : Word) : ViewRoundTrip.Statement (.addDir rd dsp) := rfl
theorem ViewRoundTrip.addIdx (rd : RegNum) (dsp : Word) (rx : RegNum) : ViewRoundTrip.Statement (.addIdx rd dsp rx) := rfl
theorem ViewRoundTrip.addImm (rd : RegNum) (imm : Word) : ViewRoundTrip.Statement (.addImm rd imm) := rfl
theorem ViewRoundTrip.addFp (rd : RegNum) (d4 : BitVec 4) : ViewRoundTrip.Statement (.addFp rd d4) := rfl
theorem ViewRoundTrip.addReg (rd : RegNum) (rs : RegNum) : ViewRoundTrip.Statement (.addReg rd rs) := rfl
theorem ViewRoundTrip.addImm4 (rd : RegNum) (i4 : BitVec 4) : ViewRoundTrip.Statement (.addImm4 rd i4) := rfl
theorem ViewRoundTrip.addInd (rd : RegNum) (rx : RegNum) : ViewRoundTrip.Statement (.addInd rd rx) := rfl
theorem ViewRoundTrip.addByte (rd : RegNum) (rx : RegNum) : ViewRoundTrip.Statement (.addByte rd rx) := rfl
theorem ViewRoundTrip.subDir (rd : RegNum) (dsp : Word) : ViewRoundTrip.Statement (.subDir rd dsp) := rfl
theorem ViewRoundTrip.subIdx (rd : RegNum) (dsp : Word) (rx : RegNum) : ViewRoundTrip.Statement (.subIdx rd dsp rx) := rfl
theorem ViewRoundTrip.subImm (rd : RegNum) (imm : Word) : ViewRoundTrip.Statement (.subImm rd imm) := rfl
theorem ViewRoundTrip.subFp (rd : RegNum) (d4 : BitVec 4) : ViewRoundTrip.Statement (.subFp rd d4) := rfl
theorem ViewRoundTrip.subReg (rd : RegNum) (rs : RegNum) : ViewRoundTrip.Statement (.subReg rd rs) := rfl
theorem ViewRoundTrip.subImm4 (rd : RegNum) (i4 : BitVec 4) : ViewRoundTrip.Statement (.subImm4 rd i4) := rfl
theorem ViewRoundTrip.subInd (rd : RegNum) (rx : RegNum) : ViewRoundTrip.Statement (.subInd rd rx) := rfl
theorem ViewRoundTrip.subByte (rd : RegNum) (rx : RegNum) : ViewRoundTrip.Statement (.subByte rd rx) := rfl
theorem ViewRoundTrip.cmpDir (rd : RegNum) (dsp : Word) : ViewRoundTrip.Statement (.cmpDir rd dsp) := rfl
theorem ViewRoundTrip.cmpIdx (rd : RegNum) (dsp : Word) (rx : RegNum) : ViewRoundTrip.Statement (.cmpIdx rd dsp rx) := rfl
theorem ViewRoundTrip.cmpImm (rd : RegNum) (imm : Word) : ViewRoundTrip.Statement (.cmpImm rd imm) := rfl
theorem ViewRoundTrip.cmpFp (rd : RegNum) (d4 : BitVec 4) : ViewRoundTrip.Statement (.cmpFp rd d4) := rfl
theorem ViewRoundTrip.cmpReg (rd : RegNum) (rs : RegNum) : ViewRoundTrip.Statement (.cmpReg rd rs) := rfl
theorem ViewRoundTrip.cmpImm4 (rd : RegNum) (i4 : BitVec 4) : ViewRoundTrip.Statement (.cmpImm4 rd i4) := rfl
theorem ViewRoundTrip.cmpInd (rd : RegNum) (rx : RegNum) : ViewRoundTrip.Statement (.cmpInd rd rx) := rfl
theorem ViewRoundTrip.cmpByte (rd : RegNum) (rx : RegNum) : ViewRoundTrip.Statement (.cmpByte rd rx) := rfl
theorem ViewRoundTrip.andDir (rd : RegNum) (dsp : Word) : ViewRoundTrip.Statement (.andDir rd dsp) := rfl
theorem ViewRoundTrip.andIdx (rd : RegNum) (dsp : Word) (rx : RegNum) : ViewRoundTrip.Statement (.andIdx rd dsp rx) := rfl
theorem ViewRoundTrip.andImm (rd : RegNum) (imm : Word) : ViewRoundTrip.Statement (.andImm rd imm) := rfl
theorem ViewRoundTrip.andFp (rd : RegNum) (d4 : BitVec 4) : ViewRoundTrip.Statement (.andFp rd d4) := rfl
theorem ViewRoundTrip.andReg (rd : RegNum) (rs : RegNum) : ViewRoundTrip.Statement (.andReg rd rs) := rfl
theorem ViewRoundTrip.andImm4 (rd : RegNum) (i4 : BitVec 4) : ViewRoundTrip.Statement (.andImm4 rd i4) := rfl
theorem ViewRoundTrip.andInd (rd : RegNum) (rx : RegNum) : ViewRoundTrip.Statement (.andInd rd rx) := rfl
theorem ViewRoundTrip.andByte (rd : RegNum) (rx : RegNum) : ViewRoundTrip.Statement (.andByte rd rx) := rfl
theorem ViewRoundTrip.orDir (rd : RegNum) (dsp : Word) : ViewRoundTrip.Statement (.orDir rd dsp) := rfl
theorem ViewRoundTrip.orIdx (rd : RegNum) (dsp : Word) (rx : RegNum) : ViewRoundTrip.Statement (.orIdx rd dsp rx) := rfl
theorem ViewRoundTrip.orImm (rd : RegNum) (imm : Word) : ViewRoundTrip.Statement (.orImm rd imm) := rfl
theorem ViewRoundTrip.orFp (rd : RegNum) (d4 : BitVec 4) : ViewRoundTrip.Statement (.orFp rd d4) := rfl
theorem ViewRoundTrip.orReg (rd : RegNum) (rs : RegNum) : ViewRoundTrip.Statement (.orReg rd rs) := rfl
theorem ViewRoundTrip.orImm4 (rd : RegNum) (i4 : BitVec 4) : ViewRoundTrip.Statement (.orImm4 rd i4) := rfl
theorem ViewRoundTrip.orInd (rd : RegNum) (rx : RegNum) : ViewRoundTrip.Statement (.orInd rd rx) := rfl
theorem ViewRoundTrip.orByte (rd : RegNum) (rx : RegNum) : ViewRoundTrip.Statement (.orByte rd rx) := rfl
theorem ViewRoundTrip.xorDir (rd : RegNum) (dsp : Word) : ViewRoundTrip.Statement (.xorDir rd dsp) := rfl
theorem ViewRoundTrip.xorIdx (rd : RegNum) (dsp : Word) (rx : RegNum) : ViewRoundTrip.Statement (.xorIdx rd dsp rx) := rfl
theorem ViewRoundTrip.xorImm (rd : RegNum) (imm : Word) : ViewRoundTrip.Statement (.xorImm rd imm) := rfl
theorem ViewRoundTrip.xorFp (rd : RegNum) (d4 : BitVec 4) : ViewRoundTrip.Statement (.xorFp rd d4) := rfl
theorem ViewRoundTrip.xorReg (rd : RegNum) (rs : RegNum) : ViewRoundTrip.Statement (.xorReg rd rs) := rfl
theorem ViewRoundTrip.xorImm4 (rd : RegNum) (i4 : BitVec 4) : ViewRoundTrip.Statement (.xorImm4 rd i4) := rfl
theorem ViewRoundTrip.xorInd (rd : RegNum) (rx : RegNum) : ViewRoundTrip.Statement (.xorInd rd rx) := rfl
theorem ViewRoundTrip.xorByte (rd : RegNum) (rx : RegNum) : ViewRoundTrip.Statement (.xorByte rd rx) := rfl
theorem ViewRoundTrip.addsDir (rd : RegNum) (dsp : Word) : ViewRoundTrip.Statement (.addsDir rd dsp) := rfl
theorem ViewRoundTrip.addsIdx (rd : RegNum) (dsp : Word) (rx : RegNum) : ViewRoundTrip.Statement (.addsIdx rd dsp rx) := rfl
theorem ViewRoundTrip.addsImm (rd : RegNum) (imm : Word) : ViewRoundTrip.Statement (.addsImm rd imm) := rfl
theorem ViewRoundTrip.addsFp (rd : RegNum) (d4 : BitVec 4) : ViewRoundTrip.Statement (.addsFp rd d4) := rfl
theorem ViewRoundTrip.addsReg (rd : RegNum) (rs : RegNum) : ViewRoundTrip.Statement (.addsReg rd rs) := rfl
theorem ViewRoundTrip.addsImm4 (rd : RegNum) (i4 : BitVec 4) : ViewRoundTrip.Statement (.addsImm4 rd i4) := rfl
theorem ViewRoundTrip.addsInd (rd : RegNum) (rx : RegNum) : ViewRoundTrip.Statement (.addsInd rd rx) := rfl
theorem ViewRoundTrip.addsByte (rd : RegNum) (rx : RegNum) : ViewRoundTrip.Statement (.addsByte rd rx) := rfl
theorem ViewRoundTrip.mulDir (rd : RegNum) (dsp : Word) : ViewRoundTrip.Statement (.mulDir rd dsp) := rfl
theorem ViewRoundTrip.mulIdx (rd : RegNum) (dsp : Word) (rx : RegNum) : ViewRoundTrip.Statement (.mulIdx rd dsp rx) := rfl
theorem ViewRoundTrip.mulImm (rd : RegNum) (imm : Word) : ViewRoundTrip.Statement (.mulImm rd imm) := rfl
theorem ViewRoundTrip.mulFp (rd : RegNum) (d4 : BitVec 4) : ViewRoundTrip.Statement (.mulFp rd d4) := rfl
theorem ViewRoundTrip.mulReg (rd : RegNum) (rs : RegNum) : ViewRoundTrip.Statement (.mulReg rd rs) := rfl
theorem ViewRoundTrip.mulImm4 (rd : RegNum) (i4 : BitVec 4) : ViewRoundTrip.Statement (.mulImm4 rd i4) := rfl
theorem ViewRoundTrip.mulInd (rd : RegNum) (rx : RegNum) : ViewRoundTrip.Statement (.mulInd rd rx) := rfl
theorem ViewRoundTrip.mulByte (rd : RegNum) (rx : RegNum) : ViewRoundTrip.Statement (.mulByte rd rx) := rfl
theorem ViewRoundTrip.divDir (rd : RegNum) (dsp : Word) : ViewRoundTrip.Statement (.divDir rd dsp) := rfl
theorem ViewRoundTrip.divIdx (rd : RegNum) (dsp : Word) (rx : RegNum) : ViewRoundTrip.Statement (.divIdx rd dsp rx) := rfl
theorem ViewRoundTrip.divImm (rd : RegNum) (imm : Word) : ViewRoundTrip.Statement (.divImm rd imm) := rfl
theorem ViewRoundTrip.divFp (rd : RegNum) (d4 : BitVec 4) : ViewRoundTrip.Statement (.divFp rd d4) := rfl
theorem ViewRoundTrip.divReg (rd : RegNum) (rs : RegNum) : ViewRoundTrip.Statement (.divReg rd rs) := rfl
theorem ViewRoundTrip.divImm4 (rd : RegNum) (i4 : BitVec 4) : ViewRoundTrip.Statement (.divImm4 rd i4) := rfl
theorem ViewRoundTrip.divInd (rd : RegNum) (rx : RegNum) : ViewRoundTrip.Statement (.divInd rd rx) := rfl
theorem ViewRoundTrip.divByte (rd : RegNum) (rx : RegNum) : ViewRoundTrip.Statement (.divByte rd rx) := rfl
theorem ViewRoundTrip.modDir (rd : RegNum) (dsp : Word) : ViewRoundTrip.Statement (.modDir rd dsp) := rfl
theorem ViewRoundTrip.modIdx (rd : RegNum) (dsp : Word) (rx : RegNum) : ViewRoundTrip.Statement (.modIdx rd dsp rx) := rfl
theorem ViewRoundTrip.modImm (rd : RegNum) (imm : Word) : ViewRoundTrip.Statement (.modImm rd imm) := rfl
theorem ViewRoundTrip.modFp (rd : RegNum) (d4 : BitVec 4) : ViewRoundTrip.Statement (.modFp rd d4) := rfl
theorem ViewRoundTrip.modReg (rd : RegNum) (rs : RegNum) : ViewRoundTrip.Statement (.modReg rd rs) := rfl
theorem ViewRoundTrip.modImm4 (rd : RegNum) (i4 : BitVec 4) : ViewRoundTrip.Statement (.modImm4 rd i4) := rfl
theorem ViewRoundTrip.modInd (rd : RegNum) (rx : RegNum) : ViewRoundTrip.Statement (.modInd rd rx) := rfl
theorem ViewRoundTrip.modByte (rd : RegNum) (rx : RegNum) : ViewRoundTrip.Statement (.modByte rd rx) := rfl
theorem ViewRoundTrip.mullDir (rd : RegNum) (dsp : Word) : ViewRoundTrip.Statement (.mullDir rd dsp) := rfl
theorem ViewRoundTrip.mullIdx (rd : RegNum) (dsp : Word) (rx : RegNum) : ViewRoundTrip.Statement (.mullIdx rd dsp rx) := rfl
theorem ViewRoundTrip.mullImm (rd : RegNum) (imm : Word) : ViewRoundTrip.Statement (.mullImm rd imm) := rfl
theorem ViewRoundTrip.mullFp (rd : RegNum) (d4 : BitVec 4) : ViewRoundTrip.Statement (.mullFp rd d4) := rfl
theorem ViewRoundTrip.mullReg (rd : RegNum) (rs : RegNum) : ViewRoundTrip.Statement (.mullReg rd rs) := rfl
theorem ViewRoundTrip.mullImm4 (rd : RegNum) (i4 : BitVec 4) : ViewRoundTrip.Statement (.mullImm4 rd i4) := rfl
theorem ViewRoundTrip.mullInd (rd : RegNum) (rx : RegNum) : ViewRoundTrip.Statement (.mullInd rd rx) := rfl
theorem ViewRoundTrip.mullByte (rd : RegNum) (rx : RegNum) : ViewRoundTrip.Statement (.mullByte rd rx) := rfl
theorem ViewRoundTrip.divlDir (rd : RegNum) (dsp : Word) : ViewRoundTrip.Statement (.divlDir rd dsp) := rfl
theorem ViewRoundTrip.divlIdx (rd : RegNum) (dsp : Word) (rx : RegNum) : ViewRoundTrip.Statement (.divlIdx rd dsp rx) := rfl
theorem ViewRoundTrip.divlImm (rd : RegNum) (imm : Word) : ViewRoundTrip.Statement (.divlImm rd imm) := rfl
theorem ViewRoundTrip.divlFp (rd : RegNum) (d4 : BitVec 4) : ViewRoundTrip.Statement (.divlFp rd d4) := rfl
theorem ViewRoundTrip.divlReg (rd : RegNum) (rs : RegNum) : ViewRoundTrip.Statement (.divlReg rd rs) := rfl
theorem ViewRoundTrip.divlImm4 (rd : RegNum) (i4 : BitVec 4) : ViewRoundTrip.Statement (.divlImm4 rd i4) := rfl
theorem ViewRoundTrip.divlInd (rd : RegNum) (rx : RegNum) : ViewRoundTrip.Statement (.divlInd rd rx) := rfl
theorem ViewRoundTrip.divlByte (rd : RegNum) (rx : RegNum) : ViewRoundTrip.Statement (.divlByte rd rx) := rfl
theorem ViewRoundTrip.shlaDir (rd : RegNum) (dsp : Word) : ViewRoundTrip.Statement (.shlaDir rd dsp) := rfl
theorem ViewRoundTrip.shlaIdx (rd : RegNum) (dsp : Word) (rx : RegNum) : ViewRoundTrip.Statement (.shlaIdx rd dsp rx) := rfl
theorem ViewRoundTrip.shlaImm (rd : RegNum) (imm : Word) : ViewRoundTrip.Statement (.shlaImm rd imm) := rfl
theorem ViewRoundTrip.shlaFp (rd : RegNum) (d4 : BitVec 4) : ViewRoundTrip.Statement (.shlaFp rd d4) := rfl
theorem ViewRoundTrip.shlaReg (rd : RegNum) (rs : RegNum) : ViewRoundTrip.Statement (.shlaReg rd rs) := rfl
theorem ViewRoundTrip.shlaImm4 (rd : RegNum) (i4 : BitVec 4) : ViewRoundTrip.Statement (.shlaImm4 rd i4) := rfl
theorem ViewRoundTrip.shlaInd (rd : RegNum) (rx : RegNum) : ViewRoundTrip.Statement (.shlaInd rd rx) := rfl
theorem ViewRoundTrip.shlaByte (rd : RegNum) (rx : RegNum) : ViewRoundTrip.Statement (.shlaByte rd rx) := rfl
theorem ViewRoundTrip.shllDir (rd : RegNum) (dsp : Word) : ViewRoundTrip.Statement (.shllDir rd dsp) := rfl
theorem ViewRoundTrip.shllIdx (rd : RegNum) (dsp : Word) (rx : RegNum) : ViewRoundTrip.Statement (.shllIdx rd dsp rx) := rfl
theorem ViewRoundTrip.shllImm (rd : RegNum) (imm : Word) : ViewRoundTrip.Statement (.shllImm rd imm) := rfl
theorem ViewRoundTrip.shllFp (rd : RegNum) (d4 : BitVec 4) : ViewRoundTrip.Statement (.shllFp rd d4) := rfl
theorem ViewRoundTrip.shllReg (rd : RegNum) (rs : RegNum) : ViewRoundTrip.Statement (.shllReg rd rs) := rfl
theorem ViewRoundTrip.shllImm4 (rd : RegNum) (i4 : BitVec 4) : ViewRoundTrip.Statement (.shllImm4 rd i4) := rfl
theorem ViewRoundTrip.shllInd (rd : RegNum) (rx : RegNum) : ViewRoundTrip.Statement (.shllInd rd rx) := rfl
theorem ViewRoundTrip.shllByte (rd : RegNum) (rx : RegNum) : ViewRoundTrip.Statement (.shllByte rd rx) := rfl
theorem ViewRoundTrip.shraDir (rd : RegNum) (dsp : Word) : ViewRoundTrip.Statement (.shraDir rd dsp) := rfl
theorem ViewRoundTrip.shraIdx (rd : RegNum) (dsp : Word) (rx : RegNum) : ViewRoundTrip.Statement (.shraIdx rd dsp rx) := rfl
theorem ViewRoundTrip.shraImm (rd : RegNum) (imm : Word) : ViewRoundTrip.Statement (.shraImm rd imm) := rfl
theorem ViewRoundTrip.shraFp (rd : RegNum) (d4 : BitVec 4) : ViewRoundTrip.Statement (.shraFp rd d4) := rfl
theorem ViewRoundTrip.shraReg (rd : RegNum) (rs : RegNum) : ViewRoundTrip.Statement (.shraReg rd rs) := rfl
theorem ViewRoundTrip.shraImm4 (rd : RegNum) (i4 : BitVec 4) : ViewRoundTrip.Statement (.shraImm4 rd i4) := rfl
theorem ViewRoundTrip.shraInd (rd : RegNum) (rx : RegNum) : ViewRoundTrip.Statement (.shraInd rd rx) := rfl
theorem ViewRoundTrip.shraByte (rd : RegNum) (rx : RegNum) : ViewRoundTrip.Statement (.shraByte rd rx) := rfl
theorem ViewRoundTrip.shrlDir (rd : RegNum) (dsp : Word) : ViewRoundTrip.Statement (.shrlDir rd dsp) := rfl
theorem ViewRoundTrip.shrlIdx (rd : RegNum) (dsp : Word) (rx : RegNum) : ViewRoundTrip.Statement (.shrlIdx rd dsp rx) := rfl
theorem ViewRoundTrip.shrlImm (rd : RegNum) (imm : Word) : ViewRoundTrip.Statement (.shrlImm rd imm) := rfl
theorem ViewRoundTrip.shrlFp (rd : RegNum) (d4 : BitVec 4) : ViewRoundTrip.Statement (.shrlFp rd d4) := rfl
theorem ViewRoundTrip.shrlReg (rd : RegNum) (rs : RegNum) : ViewRoundTrip.Statement (.shrlReg rd rs) := rfl
theorem ViewRoundTrip.shrlImm4 (rd : RegNum) (i4 : BitVec 4) : ViewRoundTrip.Statement (.shrlImm4 rd i4) := rfl
theorem ViewRoundTrip.shrlInd (rd : RegNum) (rx : RegNum) : ViewRoundTrip.Statement (.shrlInd rd rx) := rfl
theorem ViewRoundTrip.shrlByte (rd : RegNum) (rx : RegNum) : ViewRoundTrip.Statement (.shrlByte rd rx) := rfl
theorem ViewRoundTrip.jzDir (dsp : Word) : ViewRoundTrip.Statement (.jzDir dsp) := rfl
theorem ViewRoundTrip.jzIdx (dsp : Word) (rx : RegNum) : ViewRoundTrip.Statement (.jzIdx dsp rx) := rfl
theorem ViewRoundTrip.jzInd (rx : RegNum) : ViewRoundTrip.Statement (.jzInd rx) := rfl
theorem ViewRoundTrip.jcDir (dsp : Word) : ViewRoundTrip.Statement (.jcDir dsp) := rfl
theorem ViewRoundTrip.jcIdx (dsp : Word) (rx : RegNum) : ViewRoundTrip.Statement (.jcIdx dsp rx) := rfl
theorem ViewRoundTrip.jcInd (rx : RegNum) : ViewRoundTrip.Statement (.jcInd rx) := rfl
theorem ViewRoundTrip.jmDir (dsp : Word) : ViewRoundTrip.Statement (.jmDir dsp) := rfl
theorem ViewRoundTrip.jmIdx (dsp : Word) (rx : RegNum) : ViewRoundTrip.Statement (.jmIdx dsp rx) := rfl
theorem ViewRoundTrip.jmInd (rx : RegNum) : ViewRoundTrip.Statement (.jmInd rx) := rfl
theorem ViewRoundTrip.joDir (dsp : Word) : ViewRoundTrip.Statement (.joDir dsp) := rfl
theorem ViewRoundTrip.joIdx (dsp : Word) (rx : RegNum) : ViewRoundTrip.Statement (.joIdx dsp rx) := rfl
theorem ViewRoundTrip.joInd (rx : RegNum) : ViewRoundTrip.Statement (.joInd rx) := rfl
theorem ViewRoundTrip.jgtDir (dsp : Word) : ViewRoundTrip.Statement (.jgtDir dsp) := rfl
theorem ViewRoundTrip.jgtIdx (dsp : Word) (rx : RegNum) : ViewRoundTrip.Statement (.jgtIdx dsp rx) := rfl
theorem ViewRoundTrip.jgtInd (rx : RegNum) : ViewRoundTrip.Statement (.jgtInd rx) := rfl
theorem ViewRoundTrip.jgeDir (dsp : Word) : ViewRoundTrip.Statement (.jgeDir dsp) := rfl
theorem ViewRoundTrip.jgeIdx (dsp : Word) (rx : RegNum) : ViewRoundTrip.Statement (.jgeIdx dsp rx) := rfl
theorem ViewRoundTrip.jgeInd (rx : RegNum) : ViewRoundTrip.Statement (.jgeInd rx) := rfl
theorem ViewRoundTrip.jleDir (dsp : Word) : ViewRoundTrip.Statement (.jleDir dsp) := rfl
theorem ViewRoundTrip.jleIdx (dsp : Word) (rx : RegNum) : ViewRoundTrip.Statement (.jleIdx dsp rx) := rfl
theorem ViewRoundTrip.jleInd (rx : RegNum) : ViewRoundTrip.Statement (.jleInd rx) := rfl
theorem ViewRoundTrip.jltDir (dsp : Word) : ViewRoundTrip.Statement (.jltDir dsp) := rfl
theorem ViewRoundTrip.jltIdx (dsp : Word) (rx : RegNum) : ViewRoundTrip.Statement (.jltIdx dsp rx) := rfl
theorem ViewRoundTrip.jltInd (rx : RegNum) : ViewRoundTrip.Statement (.jltInd rx) := rfl
theorem ViewRoundTrip.jnzDir (dsp : Word) : ViewRoundTrip.Statement (.jnzDir dsp) := rfl
theorem ViewRoundTrip.jnzIdx (dsp : Word) (rx : RegNum) : ViewRoundTrip.Statement (.jnzIdx dsp rx) := rfl
theorem ViewRoundTrip.jnzInd (rx : RegNum) : ViewRoundTrip.Statement (.jnzInd rx) := rfl
theorem ViewRoundTrip.jncDir (dsp : Word) : ViewRoundTrip.Statement (.jncDir dsp) := rfl
theorem ViewRoundTrip.jncIdx (dsp : Word) (rx : RegNum) : ViewRoundTrip.Statement (.jncIdx dsp rx) := rfl
theorem ViewRoundTrip.jncInd (rx : RegNum) : ViewRoundTrip.Statement (.jncInd rx) := rfl
theorem ViewRoundTrip.jnmDir (dsp : Word) : ViewRoundTrip.Statement (.jnmDir dsp) := rfl
theorem ViewRoundTrip.jnmIdx (dsp : Word) (rx : RegNum) : ViewRoundTrip.Statement (.jnmIdx dsp rx) := rfl
theorem ViewRoundTrip.jnmInd (rx : RegNum) : ViewRoundTrip.Statement (.jnmInd rx) := rfl
theorem ViewRoundTrip.jnoDir (dsp : Word) : ViewRoundTrip.Statement (.jnoDir dsp) := rfl
theorem ViewRoundTrip.jnoIdx (dsp : Word) (rx : RegNum) : ViewRoundTrip.Statement (.jnoIdx dsp rx) := rfl
theorem ViewRoundTrip.jnoInd (rx : RegNum) : ViewRoundTrip.Statement (.jnoInd rx) := rfl
theorem ViewRoundTrip.jhiDir (dsp : Word) : ViewRoundTrip.Statement (.jhiDir dsp) := rfl
theorem ViewRoundTrip.jhiIdx (dsp : Word) (rx : RegNum) : ViewRoundTrip.Statement (.jhiIdx dsp rx) := rfl
theorem ViewRoundTrip.jhiInd (rx : RegNum) : ViewRoundTrip.Statement (.jhiInd rx) := rfl
theorem ViewRoundTrip.jlsDir (dsp : Word) : ViewRoundTrip.Statement (.jlsDir dsp) := rfl
theorem ViewRoundTrip.jlsIdx (dsp : Word) (rx : RegNum) : ViewRoundTrip.Statement (.jlsIdx dsp rx) := rfl
theorem ViewRoundTrip.jlsInd (rx : RegNum) : ViewRoundTrip.Statement (.jlsInd rx) := rfl
theorem ViewRoundTrip.jmpDir (dsp : Word) : ViewRoundTrip.Statement (.jmpDir dsp) := rfl
theorem ViewRoundTrip.jmpIdx (dsp : Word) (rx : RegNum) : ViewRoundTrip.Statement (.jmpIdx dsp rx) := rfl
theorem ViewRoundTrip.jmpInd (rx : RegNum) : ViewRoundTrip.Statement (.jmpInd rx) := rfl
theorem ViewRoundTrip.callDir (dsp : Word) : ViewRoundTrip.Statement (.callDir dsp) := rfl
theorem ViewRoundTrip.callIdx (dsp : Word) (rx : RegNum) : ViewRoundTrip.Statement (.callIdx dsp rx) := rfl
theorem ViewRoundTrip.callInd (rx : RegNum) : ViewRoundTrip.Statement (.callInd rx) := rfl
theorem ViewRoundTrip.inDir (rd : RegNum) (dsp : Word) : ViewRoundTrip.Statement (.inDir rd dsp) := rfl
theorem ViewRoundTrip.inInd (rd : RegNum) (rx : RegNum) : ViewRoundTrip.Statement (.inInd rd rx) := rfl
theorem ViewRoundTrip.inByte (rd : RegNum) (rx : RegNum) : ViewRoundTrip.Statement (.inByte rd rx) := rfl
theorem ViewRoundTrip.outDir (rd : RegNum) (dsp : Word) : ViewRoundTrip.Statement (.outDir rd dsp) := rfl
theorem ViewRoundTrip.outInd (rd : RegNum) (rx : RegNum) : ViewRoundTrip.Statement (.outInd rd rx) := rfl
theorem ViewRoundTrip.outByte (rd : RegNum) (rx : RegNum) : ViewRoundTrip.Statement (.outByte rd rx) := rfl
theorem ViewRoundTrip.push (rd : RegNum) : ViewRoundTrip.Statement (.push rd) := rfl
theorem ViewRoundTrip.pop (rd : RegNum) : ViewRoundTrip.Statement (.pop rd) := rfl
theorem ViewRoundTrip.ret : ViewRoundTrip.Statement (.ret) := rfl
theorem ViewRoundTrip.reti : ViewRoundTrip.Statement (.reti) := rfl
theorem ViewRoundTrip.ei : ViewRoundTrip.Statement (.ei) := rfl
theorem ViewRoundTrip.di : ViewRoundTrip.Statement (.di) := rfl
theorem ViewRoundTrip.svc : ViewRoundTrip.Statement (.svc) := rfl
theorem ViewRoundTrip.halt : ViewRoundTrip.Statement (.halt) := rfl

end Sys2Proof.Laws
end

