-- ==== Sys2Proof/WellFormed.lean ====
section
/-! DEFINITION. What an instruction must satisfy beyond its field widths for the spec to give it a meaning. -/

namespace Sys2Proof

/-- A register number that can name the low word of a pair: an even one (R201). -/
def evenReg (rd : RegNum) : Bool := !rd.getLsbD 0

/-- Well-formedness of a view: MULL and DIVL name an even Rd (R201, 注1). Every other instruction is well formed at every value of
its fields: the must-be-zero fields of R120 and the unassigned condition Dh of R121 are not values of a constructor. -/
def View.wellFormed : View → Bool
  | .ea .mull rd _ => evenReg rd
  | .ea .divl rd _ => evenReg rd
  | .ea .ld _ _ | .ea .add _ _ | .ea .sub _ _ | .ea .cmp _ _ | .ea .and _ _ | .ea .or _ _ | .ea .xor _ _ | .ea .adds _ _
  | .ea .mul _ _ | .ea .div _ _ | .ea .mod _ _ | .ea .shla _ _ | .ea .shll _ _ | .ea .shra _ _ | .ea .shrl _ _ => true
  | .no | .ldFlag _ | .st _ _ | .jump _ _ | .call _ | .input _ _ | .output _ _ | .push _ | .pop _ | .ret | .reti | .ei | .di
  | .svc | .halt => true

/-- Well-formedness of an instruction. -/
def Instr.wellFormed (i : Instr) : Bool := i.view.wellFormed

end Sys2Proof
end

