-- ==== Sys2Proof/Laws/Decode.lean ====
section
/-! SUPPORT. The fields of a first word, and the operand forms read back from their fields. -/

namespace Sys2Proof

theorem toNat_firstWord (row : BitVec 5) (m : BitVec 3) (rd rx : BitVec 4) :
    (firstWord row m rd rx).toNat = ((row.toNat * 8 + m.toNat) * 16 + rd.toNat) * 16 + rx.toNat := by
  have h : (firstWord row m rd rx).toNat = (((row.toNat <<< 3 ||| m.toNat) <<< 4 ||| rd.toNat) <<< 4 ||| rx.toNat) := by
    show (row ++ m ++ rd ++ rx).toNat = _
    simp only [BitVec.toNat_append]
  rw [h, ← Nat.shiftLeft_add_eq_or_of_lt m.isLt, ← Nat.shiftLeft_add_eq_or_of_lt rd.isLt,
    ← Nat.shiftLeft_add_eq_or_of_lt rx.isLt]
  simp only [Nat.shiftLeft_eq]

theorem toNat_field (w : Word) (lo len : Nat) : (w.extractLsb' lo len).toNat = w.toNat / 2 ^ lo % 2 ^ len := by
  rw [BitVec.extractLsb'_toNat, Nat.shiftRight_eq_div_pow]

@[simp] theorem rowField_firstWord (row : BitVec 5) (m : BitVec 3) (rd rx : BitVec 4) :
    rowField (firstWord row m rd rx) = row := by
  apply BitVec.eq_of_toNat_eq
  rw [rowField, toNat_field, toNat_firstWord]
  have := row.isLt; have := m.isLt; have := rd.isLt; have := rx.isLt
  omega

@[simp] theorem modeField_firstWord (row : BitVec 5) (m : BitVec 3) (rd rx : BitVec 4) :
    modeField (firstWord row m rd rx) = m := by
  apply BitVec.eq_of_toNat_eq
  rw [modeField, toNat_field, toNat_firstWord]
  have := row.isLt; have := m.isLt; have := rd.isLt; have := rx.isLt
  omega

@[simp] theorem rdField_firstWord (row : BitVec 5) (m : BitVec 3) (rd rx : BitVec 4) :
    rdField (firstWord row m rd rx) = rd := by
  apply BitVec.eq_of_toNat_eq
  rw [rdField, toNat_field, toNat_firstWord]
  have := row.isLt; have := m.isLt; have := rd.isLt; have := rx.isLt
  omega

@[simp] theorem rxField_firstWord (row : BitVec 5) (m : BitVec 3) (rd rx : BitVec 4) :
    rxField (firstWord row m rd rx) = rx := by
  apply BitVec.eq_of_toNat_eq
  rw [rxField, toNat_field, toNat_firstWord]
  have := row.isLt; have := m.isLt; have := rd.isLt; have := rx.isLt
  omega

/-- A first word is made of its four fields (R111, R113). -/
theorem firstWord_fields (w : Word) : firstWord (rowField w) (modeField w) (rdField w) (rxField w) = w := by
  apply BitVec.eq_of_toNat_eq
  rw [toNat_firstWord, rowField, modeField, rdField, rxField, toNat_field, toNat_field, toNat_field, toNat_field]
  have := w.isLt
  omega

/-- The row of an operation names it (R118). -/
@[simp] theorem EaOp.ofRow_row (o : EaOp) : EaOp.ofRow o.row = some o := by cases o <;> rfl

/-- A row that names an operation is its row (R118). -/
theorem EaOp.row_of_ofRow {row : BitVec 5} {o : EaOp} (h : EaOp.ofRow row = some o) : o.row = row := by
  revert row o
  decide

/-- The code of a condition names it (R121). -/
@[simp] theorem Cond.ofCode_code (cc : Cond) : Cond.ofCode cc.code = some cc := by cases cc <;> rfl

/-- A code that names a condition is its code (R121). -/
theorem Cond.code_of_ofCode {code : RegNum} {cc : Cond} (h : Cond.ofCode code = some cc) : cc.code = code := by
  revert code cc
  decide

/-- What completes a first word with the words after it. -/
def First.complete {α : Type} : First α → List Word → Option α
  | .one a, [] => some a
  | .two f, [w2] => some (f w2)
  | _, _ => none

theorem decodeEa_fields (e : Ea) : (decodeEa e.fields.1 e.fields.2.1).complete e.fields.2.2 = some e := by
  cases e <;> rfl

theorem decodeMemEa_fields (e : MemEa) : (decodeMemEa e.fields.1 e.fields.2.1).complete e.fields.2.2 = some e := by
  cases e <;> rfl

theorem decodeJumpEa_fields (e : JumpEa) : (decodeJumpEa e.fields.1 e.fields.2.1).complete e.fields.2.2 = some e := by
  cases e <;> rfl

theorem decodePortEa_fields (e : PortEa) : (decodePortEa e.fields.1 e.fields.2.1).complete e.fields.2.2 = some e := by
  cases e <;> rfl

/-- Words laid out as bytes, one word after another. -/
theorem bytesOfWords_append (u v : List Word) : bytesOfWords (u ++ v) = bytesOfWords u ++ bytesOfWords v := by
  induction u with
  | nil => rfl
  | cons w ws ih => simp [bytesOfWords, ih]

/-- The view of an instruction names it. -/
@[simp] theorem Instr.ofView_view (i : Instr) : Instr.ofView i.view = i := by cases i <;> rfl

/-- The instruction of a view shows that view. -/
@[simp] theorem Instr.view_ofView (v : View) : (Instr.ofView v).view = v := by
  cases v with
  | ea o rd e => cases o <;> cases e <;> rfl
  | st rd e => cases e <;> rfl
  | jump cc e => cases cc <;> cases e <;> rfl
  | call e => cases e <;> rfl
  | input rd e => cases e <;> rfl
  | output rd e => cases e <;> rfl
  | _ => rfl

end Sys2Proof
end

