-- ==== Sys2Proof/Laws/Exec.lean ====
section
/-! SUPPORT. `exec` over the views: which shared operation each family of instructions runs. Later proofs cite these equations and the
lemmas about the shared operations, and never unfold `exec`. -/

namespace Sys2Proof.Machine

/-- The shared operation of each operation with a value operand. -/
def doEa (o : EaOp) (rd : RegNum) (e : Ea) (st : State) : Result :=
  match o with
  | .ld => doLd rd e st
  | .add => doAdd rd e st
  | .sub => doSub rd e st
  | .cmp => doCmp rd e st
  | .and => doAnd rd e st
  | .or => doOr rd e st
  | .xor => doXor rd e st
  | .adds => doAdds rd e st
  | .mul => doMul rd e st
  | .div => doDiv rd e st
  | .mod => doMod rd e st
  | .mull => doMull rd e st
  | .divl => doDivl rd e st
  | .shla => doShla rd e st
  | .shll => doShll rd e st
  | .shra => doShra rd e st
  | .shrl => doShrl rd e st

theorem exec_ofEa (o : EaOp) (rd : RegNum) (e : Ea) (st : State) : exec (.ofEa o rd e) st = doEa o rd e st := by
  cases o <;> cases e <;> rfl

theorem exec_ofSt (rd : RegNum) (e : MemEa) (st : State) : exec (.ofSt rd e) st = doSt rd e st := by
  cases e <;> rfl

theorem exec_ofJump (cc : Cond) (e : JumpEa) (st : State) : exec (.ofJump cc e) st = doJump cc e st := by
  cases cc <;> cases e <;> rfl

theorem exec_ofCall (e : JumpEa) (st : State) : exec (.ofCall e) st = doCall e st := by
  cases e <;> rfl

theorem exec_ofIn (rd : RegNum) (e : PortEa) (st : State) : exec (.ofIn rd e) st = doIn rd e st := by
  cases e <;> rfl

theorem exec_ofOut (rd : RegNum) (e : PortEa) (st : State) : exec (.ofOut rd e) st = doOut rd e st := by
  cases e <;> rfl

/-- A value operand that is found: the operation of ADD, SUB, AND, OR, XOR and ADDS (R181 to R187). -/
theorem doAlu_ok {result : Word → Word → Word} {flags : Word → Word → Vcsz} {rd : RegNum} {e : Ea} {st : State} {b : Word}
    (h : operand st e = .ok b) :
    doAlu result flags rd e st = .next ((st.setX rd (result (st.x rd) b)).withVcsz (flags (st.x rd) b)) := by
  simp [doAlu, h]

/-- A value operand that is not found: the instruction takes the exception of the access, or stops with it. -/
theorem operand_raised {e : Ea} {st : State} {ex : Exc} (h : operand st e = .raised ex) (k : Word → Result) :
    (operand st e).run st k = raise ex st := by
  simp [h]

/-- What LD and the operations of R181 to R187 can do, when they answer a next state. -/
theorem doAlu_next {result : Word → Word → Word} {flags : Word → Word → Vcsz} {rd : RegNum} {e : Ea} {st t : State}
    (h : doAlu result flags rd e st = .next t) :
    (∃ b, operand st e = .ok b ∧ t = (st.setX rd (result (st.x rd) b)).withVcsz (flags (st.x rd) b)) ∨
      ∃ ex, operand st e = .raised ex ∧ raise ex st = .next t := by
  rcases Access.run_next h with ⟨b, hb, h⟩ | h
  · exact .inl ⟨b, hb, by simpa using h.symm⟩
  · exact .inr h

theorem State.withFree_self_of {st : State} {n : Nat} (h : st.free = n) : st.withFree n = st := by
  rw [← h, State.withFree_self]

/-- What a shift can do, when it answers a next state (R220). -/
theorem doShift_next {result : Word → Nat → Word} {out : Word → Nat → Bool} {rd : RegNum} {e : Ea} {st t : State}
    (h : doShift result out rd e st = .next t) :
    (∃ r f n, t = ((st.setX rd r).withVcsz f).withFree n) ∨
      ∃ ex, operand st e = .raised ex ∧ raise ex st = .next t := by
  rcases Access.run_next h with ⟨b, hb, h⟩ | h
  · left
    split at h
    · refine ⟨result (st.x rd) b.toNat, flagsShift (result (st.x rd) b.toNat) (out (st.x rd) b.toNat), st.free,
        (Host.Outcome.next.inj h).symm.trans ?_⟩
      exact (State.withFree_self_of (by simp [State.setX])).symm
    · exact ⟨_, _, _, by simpa using h.symm⟩
  · exact .inr h

/-- What ST can do, when it answers a next state: a word or a byte written, or the exception of the access taken (R173). -/
theorem doSt_next {rd : RegNum} {e : MemEa} {st t : State} (h : doSt rd e st = .next t) :
    ((storeTarget st e).2 = 2 ∧ st.checkWord .write (storeTarget st e).1 = .ok () ∧
        t = st.withMem (st.mem.writeWord (storeTarget st e).1 (st.x rd))) ∨
      ((storeTarget st e).2 ≠ 2 ∧ st.checkByte .write (storeTarget st e).1 = .ok () ∧
        t = st.withMem (st.mem.write (storeTarget st e).1.toNat (lowByte (st.x rd)))) ∨
      ∃ ex, raise ex st = .next t := by
  unfold doSt at h
  split at h
  · next hw =>
    rcases Access.run_next h with ⟨s, hs, h⟩ | ⟨ex, -, h⟩
    · obtain ⟨hc, rfl⟩ := State.writeWord_ok.1 hs
      exact .inl ⟨hw, hc, by simpa using h.symm⟩
    · exact .inr (.inr ⟨ex, h⟩)
  · next hw =>
    rcases Access.run_next h with ⟨s, hs, h⟩ | ⟨ex, -, h⟩
    · obtain ⟨hc, rfl⟩ := State.writeByte_ok.1 hs
      exact .inr (.inl ⟨hw, hc, by simpa using h.symm⟩)
    · exact .inr (.inr ⟨ex, h⟩)

/-- What CALL can do, when it answers a next state (R258). -/
theorem doCall_next {e : JumpEa} {st t : State} (h : doCall e st = .next t) :
    (∃ st', st.push st.pc = .ok st' ∧ t = st'.withPc (jumpTarget st e)) ∨ ∃ ex, raise ex st = .next t := by
  rcases Access.run_next h with ⟨s, hs, h⟩ | ⟨ex, -, h⟩
  · exact .inl ⟨s, hs, by simpa using h.symm⟩
  · exact .inr ⟨ex, h⟩

/-- What PUSH can do, when it answers a next state: Rd, which does not name the stack pointer in use, pushed (R281). -/
theorem doPush_next {rd : RegNum} {st t : State} (h : doPush rd st = .next t) :
    st.namesSp rd = false ∧ (st.push (st.x rd) = .ok t ∨ ∃ ex, raise ex st = .next t) := by
  unfold doPush at h
  split at h
  · cases h
  · next hn =>
    refine ⟨by simpa using hn, ?_⟩
    rcases Access.run_next h with ⟨s, hs, h⟩ | ⟨ex, -, h⟩
    · exact .inl (Host.Outcome.next.inj h ▸ hs)
    · exact .inr ⟨ex, h⟩

/-- What POP can do, when it answers a next state: a word popped into Rd, which does not name the stack pointer in use (R282). -/
theorem doPop_next {rd : RegNum} {st t : State} (h : doPop rd st = .next t) :
    st.namesSp rd = false ∧ ((∃ w st', st.pop = .ok (w, st') ∧ t = st'.setX rd w) ∨ ∃ ex, raise ex st = .next t) := by
  unfold doPop at h
  split at h
  · cases h
  · next hn =>
    refine ⟨by simpa using hn, ?_⟩
    rcases Access.run_next h with ⟨⟨w, s⟩, hs, h⟩ | ⟨ex, -, h⟩
    · exact .inl ⟨w, s, hs, (Host.Outcome.next.inj h).symm⟩
    · exact .inr ⟨ex, h⟩

/-- A step of a CPU that is not halted, with no interrupt to take, is what the fetch gives (R26). -/
theorem step_of_no_interrupt {st : State} (hh : st.halted = false) (hi : st.receive.acceptInterrupt = none) :
    step st = (fetch st.receive).finish st.receive := by
  simp [step, cycle, hh, boundary, hi]

end Sys2Proof.Machine
end

