-- ==== Sys2Proof/Laws/Frames.lean ====
section
/-! SUPPORT. Bridges between the terms of Safety.lean and the shared operations: what one register write, one word write, one access
leaves, and when an access succeeds. -/

namespace Sys2Proof.Machine

/-! ## Registers -/

@[simp] theorem State.reg_setX (s : State) (r r' : RegNum) (w : Word) : (s.setX r w).reg r' = s.reg r' := by
  simp [State.setX]

@[simp] theorem State.x_setX (s : State) (r : RegNum) (w : Word) : (s.setX r w).x r = w := by
  simp [State.x, State.setX]

theorem State.x_setX_ne (s : State) (r r' : RegNum) (w : Word) (h : s.reg r' ≠ s.reg r) : (s.setX r w).x r' = s.x r' := by
  rw [State.x, State.reg_setX]
  exact State.get_set_ne _ _ _ _ h

@[simp] theorem State.x_withVcsz (s : State) (r : RegNum) (f : Vcsz) : (s.withVcsz f).x r = s.x r := by
  simp [State.x, State.reg, State.withVcsz]

theorem State.x_sp_privileged {s : State} (h : s.flag.p = true) : s.x spNum = s.ssp := by
  simp [State.x, State.reg, resolve, spNum, h, State.get]

theorem State.x_sp_user {s : State} (h : s.flag.p = false) : s.x spNum = s.usp := by
  simp [State.x, State.reg, resolve, spNum, h, State.get]

theorem State.x_setPair_low (s : State) (rd : RegNum) (h : rd.getLsbD 0 = false) (hi lo : Word) (f : Vcsz) :
    (s.setPair rd hi lo f).x rd = lo := by
  rw [State.setPair, State.x_withVcsz, State.x_setX_ne, State.x_setX]
  rw [State.reg_setX, State.reg_setX]
  exact Ne.symm (resolve_pair_ne _ _ h)

theorem State.x_setPair_high (s : State) (rd : RegNum) (hi lo : Word) (f : Vcsz) :
    (s.setPair rd hi lo f).x (highOf rd) = hi := by
  rw [State.setPair, State.x_withVcsz, State.x_setX]

/-! ## Frames -/

theorem onlyRegs_refl (xs : List Reg) (s : State) : onlyRegs xs s s := by
  simp [onlyRegs, sameRegsBut, sameBytes, samePlatform]

theorem onlyRegs_setX (s : State) (r : RegNum) (w : Word) : onlyRegs [s.reg r] s (s.setX r w) := by
  refine ⟨fun x hx => State.get_set_ne _ _ _ _ (by simpa using hx), ?_⟩
  simp [State.setX, sameBytes, State.byteAt, samePlatform]

theorem onlyRegs_withPc (s : State) (w : Word) : onlyRegs [.pc] s (s.withPc w) := by
  refine ⟨fun x hx => ?_, ?_⟩
  · cases x <;> simp_all [State.get]
  · simp [sameBytes, State.byteAt, samePlatform]

theorem onlyRegsVcsz_setX (s : State) (r : RegNum) (w : Word) (f : Vcsz) :
    onlyRegsVcsz [s.reg r] s ((s.setX r w).withVcsz f) := by
  refine ⟨fun x hx => ?_, ?_⟩
  · rw [State.get_withVcsz]
    exact State.get_set_ne _ _ _ _ (by simpa using hx)
  · simp [State.setX, sameBytes, State.byteAt, samePlatform, State.withVcsz, sameMode]

theorem onlyRegsVcsz_withVcsz (s : State) (f : Vcsz) : onlyRegsVcsz [] s (s.withVcsz f) := by
  refine ⟨fun x _ => by simp, ?_⟩
  simp [sameBytes, State.byteAt, samePlatform, State.withVcsz, sameMode]

theorem onlyRegsVcsz_setPair (s : State) (rd : RegNum) (hi lo : Word) (f : Vcsz) :
    onlyRegsVcsz [s.reg rd, s.reg (highOf rd)] s (s.setPair rd hi lo f) := by
  refine ⟨fun x hx => ?_, ?_⟩
  · simp only [List.mem_cons, List.not_mem_nil, or_false, not_or] at hx
    rw [State.setPair, State.get_withVcsz, State.setX, State.get_set_ne, State.setX, State.get_set_ne]
    · exact hx.1
    · rw [State.reg_setX]
      exact hx.2
  · simp [State.setPair, State.setX, sameBytes, State.byteAt, samePlatform, State.withVcsz, sameMode]

theorem onlyRegsBytes_writeWord (s : State) (a w : Word) :
    onlyRegsBytes [] [a, a + 1#16] s (s.withMem (s.mem.writeWord a w)) := by
  refine ⟨fun x _ => by simp, rfl, fun k hk => ?_, by simp [samePlatform]⟩
  rw [State.byteAt, State.mem_withMem, Memory.read_writeWord_other _ _ _ _ (hk a (by simp)) (hk _ (by simp))]
  rfl

theorem onlyRegsBytes_writeByte (s : State) (a : Word) (b : Byte) :
    onlyRegsBytes [] [a] s (s.withMem (s.mem.write a.toNat b)) := by
  refine ⟨fun x _ => by simp, rfl, fun k hk => ?_, by simp [samePlatform]⟩
  rw [State.byteAt, State.mem_withMem, Memory.read_write_ne _ _ _ _ (hk a (by simp))]
  rfl

/-! ## Flags -/

theorem resultFlags_withVcsz {s : State} {f : Vcsz} {v c n z : Prop} (hv : f.v = true ↔ v) (hc : f.c = true ↔ c)
    (hs : f.s = true ↔ n) (hz : f.z = true ↔ z) : resultFlags (s.withVcsz f) v c n z :=
  ⟨hv, hc, hs, hz⟩

theorem signOf_eq_decide (w : Word) : signOf w = decide (32768 ≤ w.toNat) := by
  rw [signOf, BitVec.getLsbD, Nat.testBit_eq_decide_div_mod_eq, decide_eq_decide]
  have := w.isLt
  omega

theorem signOf_iff_neg (w : Word) : signOf w = true ↔ w.toInt < 0 := by
  rw [signOf_eq_decide, decide_eq_true_eq, BitVec.toInt_eq_toNat_cond]
  have := w.isLt
  split <;> omega

theorem zeroOf_iff (w : Word) : zeroOf w = true ↔ w.toNat = 0 := by
  simp [zeroOf, ← BitVec.toNat_inj]

/-! ## Accesses -/

theorem lsb_eq_decide (a : Word) : a.getLsbD 0 = decide (a.toNat % 2 = 1) := by
  rw [BitVec.getLsbD, Nat.testBit_zero]

theorem regionOf_ne_reserved {a : Word} (h : a.toNat < 0xE000 ∨ 0xF000 ≤ a.toNat) : regionOf a ≠ .reserved := by
  unfold regionOf
  (repeat' split) <;> simp_all; omega

theorem regionOf_writable {a : Word} (h : a.toNat < 0xE000 ∨ 0xFFE0 ≤ a.toNat) :
    regionOf a ≠ .reserved ∧ regionOf a ≠ .rom := by
  unfold regionOf
  split <;> (try split) <;> (try split) <;> simp_all <;> omega

/-- Where the region can be written, the address is in RAM or in the vector table (R74). -/
theorem writable_of_regionOf {a : Word} (h1 : regionOf a ≠ .reserved) (h2 : regionOf a ≠ .rom) :
    a.toNat < 0xE000 ∨ 0xFFE0 ≤ a.toNat := by
  revert h1 h2
  unfold regionOf
  split <;> (try split) <;> (try split) <;> simp_all

theorem checkWord_of_writable {s : State} {a : Word} (h : writableWord s a) : s.checkWord .write a = .ok () := by
  obtain ⟨h1, h2, h3⟩ := h
  exact State.checkWord_ok.2 ⟨by rw [lsb_eq_decide]; simp; omega, h2, (regionOf_writable h3).1,
    fun _ => (regionOf_writable h3).2⟩

theorem checkByte_of_writable {s : State} {a : Word} (h : writableByte s a) : s.checkByte .write a = .ok () :=
  State.checkByte_ok.2 ⟨h.1, (regionOf_writable h.2).1, fun _ => (regionOf_writable h.2).2⟩

theorem checkWord_of_readable {s : State} {kind : AccessKind} {a w : Word} (hk : kind ≠ .write) (h : readableWord s kind a w) :
    s.checkWord kind a = .ok () :=
  State.checkWord_ok.2 ⟨by rw [lsb_eq_decide]; simp; have := h.1; omega, h.2.1, regionOf_ne_reserved h.2.2.1, fun e => absurd e hk⟩

/-- Memory holds a word exactly when the word read there is it (R63). -/
theorem holdsWord_iff {s : State} {a w : Word} : holdsWord s a w ↔ s.mem.readWord a = some w := by
  constructor
  · rintro ⟨h1, h2⟩
    unfold State.byteAt at h1 h2
    unfold Memory.readWord
    rw [h1, h2]
    simp
  · intro h
    unfold Memory.readWord at h
    split at h
    · next hi lo h1 h2 =>
      injection h with h
      subst h
      exact ⟨by simp [State.byteAt, h1], by rw [State.byteAt, h2]; simp⟩
    · cases h

theorem readWord_of_readable {s : State} {kind : AccessKind} {a w : Word} (hk : kind ≠ .write) (h : readableWord s kind a w) :
    s.readWord kind a = .ok w :=
  State.readWord_ok.2 ⟨checkWord_of_readable hk h, holdsWord_iff.1 h.2.2.2⟩

theorem readByte_of_readable {s : State} {a : Word} {b : Byte} (h : readableByte s a b) : s.readByte a = .ok b :=
  State.readByte_ok.2 ⟨State.checkByte_ok.2 ⟨h.1, regionOf_ne_reserved h.2.1, by simp⟩, h.2.2⟩

theorem push_of_writable {s : State} {w : Word} (h : writableWord s (s.x spNum - 2#16)) :
    s.push w = .ok ((s.withMem (s.mem.writeWord (s.x spNum - 2#16) w)).setX spNum (s.x spNum - 2#16)) :=
  State.push_ok.2 ⟨checkWord_of_writable h, rfl⟩

theorem pop_of_readable {s : State} {w : Word} (h : readableWord s .read (s.x spNum) w) :
    s.pop = .ok (w, s.setX spNum (s.x spNum + 2#16)) :=
  State.pop_ok.2 ⟨checkWord_of_readable (by simp) h, holdsWord_iff.1 h.2.2.2, rfl⟩

/-! ## Accesses that do not succeed -/

/-- An odd address raises AddressError before any other check (R66, R68). -/
theorem checkWord_of_odd {s : State} {kind : AccessKind} {a : Word} (h : a.toNat % 2 = 1) :
    s.checkWord kind a = .raised .addressError := by
  simp [State.checkWord, lsb_eq_decide, h]

/-- An even address that the protection rejects raises MemoryViolation (R72). -/
theorem checkWord_of_rejected {s : State} {kind : AccessKind} {a : Word} (h : a.toNat % 2 = 0) (hr : s.rejects kind a = true) :
    s.checkWord kind a = .raised .memoryViolation := by
  have he : a.getLsbD 0 = false := by rw [lsb_eq_decide, decide_eq_false (by omega)]
  simp only [State.checkWord, he, hr, Bool.false_eq_true, if_false, if_true]

/-- A byte access that the protection rejects raises MemoryViolation (R72). -/
theorem checkByte_of_rejected {s : State} {kind : AccessKind} {a : Word} (hr : s.rejects kind a = true) :
    s.checkByte kind a = .raised .memoryViolation := by
  simp [State.checkByte, hr]

/-- An even address of the reserved region that is not rejected is refused, whatever the access (R75). -/
theorem checkWord_of_reserved {s : State} {kind : AccessKind} {a : Word} (h : a.toNat % 2 = 0) (hr : s.rejects kind a = false)
    (h1 : 0xE000 ≤ a.toNat) (h2 : a.toNat < 0xF000) : s.checkWord kind a = .refused .reservedRegion := by
  have he : a.getLsbD 0 = false := by rw [lsb_eq_decide, decide_eq_false (by omega)]
  have hg : regionOf a = .reserved := by rw [regionOf, if_neg (by omega), if_pos h2]
  simp only [State.checkWord, he, hr, hg, Bool.false_eq_true, if_false]

theorem readWord_of_raised {s : State} {kind : AccessKind} {a : Word} {e : Exc} (h : s.checkWord kind a = .raised e) :
    s.readWord kind a = .raised e := by
  simp [State.readWord, Access.bind, h]

theorem push_of_raised {s : State} {w : Word} {e : Exc} (h : s.checkWord .write (s.x spNum - 2#16) = .raised e) :
    s.push w = .raised e := by
  simp [State.push, State.writeWord, Access.map, h]

theorem pop_of_raised {s : State} {e : Exc} (h : s.checkWord .read (s.x spNum) = .raised e) : s.pop = .raised e := by
  simp [State.pop, readWord_of_raised h, Access.map]

/-- Rd names the stack pointer in use exactly when it names the register that number Dh names (R281, R282). -/
theorem State.namesSp_iff {s : State} {rd : RegNum} : s.namesSp rd = true ↔ s.reg rd = s.reg spNum := by
  simp [State.namesSp]

/-! ## The boundary -/

@[simp] theorem State.pc_receive (s : State) : s.receive.pc = s.pc := by rw [State.receive_eq]; rfl
@[simp] theorem State.mem_receive (s : State) : s.receive.mem = s.mem := by rw [State.receive_eq]; rfl
@[simp] theorem State.flag_receive (s : State) : s.receive.flag = s.flag := by rw [State.receive_eq]; rfl
@[simp] theorem State.halted_receive (s : State) : s.receive.halted = s.halted := by rw [State.receive_eq]; rfl
@[simp] theorem State.ioTrace_receive (s : State) : s.receive.ioTrace = s.ioTrace := by rw [State.receive_eq]; rfl
@[simp] theorem State.lowerLimit_receive (s : State) : s.receive.lowerLimit = s.lowerLimit := by rw [State.receive_eq]; rfl
@[simp] theorem State.upperLimit_receive (s : State) : s.receive.upperLimit = s.upperLimit := by rw [State.receive_eq]; rfl
@[simp] theorem State.get_receive (s : State) (x : Reg) : s.receive.get x = s.get x := by
  rw [State.receive_eq]
  simp

theorem acceptInterrupt_none {s : State} (h : noInterrupt s) : s.acceptInterrupt = none := by
  unfold State.acceptInterrupt
  rcases h with h | h
  · simp [h]
  · have : s.pendingSources = [] := by simp [State.pendingSources, h]
    rw [this]
    split <;> rfl

/-! ## What the remaining operations can do -/

/-- What LD can do, when it answers a next state (R171). -/
theorem doLd_next {rd : RegNum} {e : Ea} {st t : State} (h : doLd rd e st = .next t) :
    (∃ b, operand st e = .ok b ∧ t = st.setX rd b) ∨ ∃ ex, raise ex st = .next t := by
  rcases Access.run_next h with ⟨b, hb, h⟩ | ⟨ex, -, h⟩
  · exact .inl ⟨b, hb, by simpa using h.symm⟩
  · exact .inr ⟨ex, h⟩

/-- What RET can do, when it answers a next state (R283). -/
theorem doRet_next {st t : State} (h : doRet st = .next t) :
    (∃ w st', st.pop = .ok (w, st') ∧ t = st'.withPc w) ∨ ∃ ex, raise ex st = .next t := by
  rcases Access.run_next h with ⟨⟨w, s⟩, hs, h⟩ | ⟨ex, -, h⟩
  · exact .inl ⟨w, s, hs, by simpa using h.symm⟩
  · exact .inr ⟨ex, h⟩

/-- What RETI can do, when it answers a next state: the trap return in privileged mode, or an exception (R284). -/
theorem doReti_next {st t : State} (h : doReti st = .next t) :
    (st.flag.p = true ∧ st.trapReturn = .ok t) ∨ ∃ ex, raise ex st = .next t := by
  unfold doReti at h
  split at h
  · next hp =>
    rcases Access.run_next h with ⟨s, hs, h⟩ | ⟨ex, -, h⟩
    · exact .inl ⟨hp, by rw [hs]; simpa using h⟩
    · exact .inr ⟨ex, h⟩
  · exact .inr ⟨_, h⟩

/-- What MULL can do, when it answers a next state (R204). -/
theorem doMull_next {rd : RegNum} {e : Ea} {st t : State} (h : doMull rd e st = .next t) :
    (∃ hi lo f, t = st.setPair rd hi lo f) ∨ ∃ ex, raise ex st = .next t := by
  unfold doMull at h
  split at h
  · exact nomatch h
  · rcases Access.run_next h with ⟨b, -, h⟩ | ⟨ex, -, h⟩
    · exact .inl ⟨_, _, _, by simpa using h.symm⟩
    · exact .inr ⟨ex, h⟩

/-- What DIVL can do, when it answers a next state (R207). -/
theorem doDivl_next {rd : RegNum} {e : Ea} {st t : State} (h : doDivl rd e st = .next t) :
    (∃ hi lo f n, t = (st.setPair rd hi lo f).withFree n) ∨ ∃ ex, raise ex st = .next t := by
  unfold doDivl at h
  split at h
  · exact nomatch h
  · rcases Access.run_next h with ⟨b, -, h⟩ | ⟨ex, -, h⟩
    · simp only at h
      split at h
      · exact .inr ⟨_, h⟩
      · split at h
        · exact .inl ⟨_, _, _, st.free, (Host.Outcome.next.inj h).symm.trans
            (State.withFree_self_of (by simp [State.setPair, State.setX, State.withVcsz])).symm⟩
        · exact .inl ⟨_, _, _, _, (Host.Outcome.next.inj h).symm⟩
    · exact .inr ⟨ex, h⟩

/-- What IN can do, when it answers a next state (R270). -/
theorem doIn_next {rd : RegNum} {e : PortEa} {st t : State} (h : doIn rd e st = .next t) :
    (st.flag.p = true ∧ ∃ v st', st.ioRead (portOf (ioPort st e).1) (ioPort st e).2 = .ok (v, st') ∧ t = st'.setX rd v) ∨
      ∃ ex, raise ex st = .next t := by
  rcases gated_next h with ⟨hp, h⟩ | ⟨-, h⟩
  · rcases Access.run_next h with ⟨⟨v, s⟩, hs, h⟩ | ⟨ex, -, h⟩
    · exact .inl ⟨hp, v, s, hs, by simpa using h.symm⟩
    · exact .inr ⟨ex, h⟩
  · exact .inr ⟨_, h⟩

/-- What OUT can do, when it answers a next state (R271). -/
theorem doOut_next {rd : RegNum} {e : PortEa} {st t : State} (h : doOut rd e st = .next t) :
    (st.flag.p = true ∧ st.ioWrite (portOf (ioPort st e).1) (ioPort st e).2 (st.x rd) = .ok t) ∨
      ∃ ex, raise ex st = .next t := by
  rcases gated_next h with ⟨hp, h⟩ | ⟨-, h⟩
  · rcases Access.run_next h with ⟨s, hs, h⟩ | ⟨ex, -, h⟩
    · exact .inl ⟨hp, by rw [hs]; simpa using h⟩
    · exact .inr ⟨ex, h⟩
  · exact .inr ⟨_, h⟩

end Sys2Proof.Machine
end

