-- ==== Sys2Proof/Tests/Slice0.lean ====
section
/-! SUPPORT. Tests of the model, with the expected results of 95_test_vectors.md (parts 2.1 to 2.10, the vector named in each docstring), and one
witness for each statement that has hypotheses. -/

namespace Sys2Proof.Tests

open Sys2Proof Sys2Proof.Machine

/-! ## Decoding (part 2.1): the words written out from the encoding tables -/

theorem test_decode_no : decodeTableWord 16 0x0000 = some .no := by decide
theorem test_decode_no_rx_not_zero : decodeTableWord 16 0x0001 = none := by decide
theorem test_decode_no_rd_not_zero : decodeTableWord 16 0x0010 = none := by decide
theorem test_decode_ld_direct : decodeTableWord 32 0x12340810 = some (.ldDir 1 0x1234) := by decide
theorem test_decode_ld_direct_rx_not_zero : decodeTableWord 32 0x12340811 = none := by decide
theorem test_decode_ld_indexed : decodeTableWord 32 0x12340912 = some (.ldIdx 1 0x1234 2) := by decide
theorem test_decode_ld_immediate : decodeTableWord 32 0x12340A10 = some (.ldImm 1 0x1234) := by decide
theorem test_decode_ld_fp : decodeTableWord 16 0x0B1E = some (.ldFp 1 0xE) := by decide
theorem test_decode_ld_register : decodeTableWord 16 0x0C12 = some (.ldReg 1 2) := by decide
theorem test_decode_ld_imm4 : decodeTableWord 16 0x0D1F = some (.ldImm4 1 0xF) := by decide
theorem test_decode_ld_indirect : decodeTableWord 16 0x0E12 = some (.ldInd 1 2) := by decide
theorem test_decode_ld_byte : decodeTableWord 16 0x0F12 = some (.ldByte 1 2) := by decide
theorem test_decode_ld_flag : decodeTableWord 16 0x1400 = some (.ldFlag 0) := by decide
theorem test_decode_ld_flag_rx_not_zero : decodeTableWord 16 0x1401 = none := by decide
theorem test_decode_blank_12 : decodeTableWord 16 0x1200 = none := by decide
theorem test_decode_st_indexed : decodeTableWord 32 0x00101110 = some (.stIdx 1 0x0010 0) := by decide
theorem test_decode_st_byte : decodeTableWord 16 0x1712 = some (.stByte 1 2) := by decide
theorem test_decode_add_register : decodeTableWord 16 0x1C01 = some (.addReg 0 1) := by decide
theorem test_decode_adds_indexed : decodeTableWord 32 0x30024934 = some (.addsIdx 3 0x3002 4) := by decide
theorem test_decode_mull_register : decodeTableWord 16 0x6C24 = some (.mullReg 2 4) := by decide
theorem test_decode_shra_imm4 : decodeTableWord 16 0x9524 = some (.shraImm4 2 4) := by decide
theorem test_decode_jump_condition_d : decodeTableWord 32 0x0200A0D0 = none := by decide
theorem test_decode_jmp_indexed : decodeTableWord 32 0x0010A1F2 = some (.jmpIdx 0x0010 2) := by decide
theorem test_decode_jls_direct : decodeTableWord 32 0x0200A0E0 = some (.jlsDir 0x0200) := by decide
theorem test_decode_call_rd_not_zero : decodeTableWord 32 0x0300A810 = none := by decide
theorem test_decode_call_indirect : decodeTableWord 16 0xAE03 = some (.callInd 3) := by decide
theorem test_decode_in_indexed_blank : decodeTableWord 16 0xB100 = none := by decide
theorem test_decode_in_indirect : decodeTableWord 16 0xB612 = some (.inInd 1 2) := by decide
theorem test_decode_out_byte : decodeTableWord 16 0xBF12 = some (.outByte 1 2) := by decide
theorem test_decode_push : decodeTableWord 16 0xC030 = some (.push 3) := by decide
theorem test_decode_pop : decodeTableWord 16 0xC440 = some (.pop 4) := by decide
theorem test_decode_ret : decodeTableWord 16 0xD000 = some .ret := by decide
theorem test_decode_reti : decodeTableWord 16 0xD400 = some .reti := by decide
theorem test_decode_ei : decodeTableWord 16 0xE000 = some .ei := by decide
theorem test_decode_di : decodeTableWord 16 0xE400 = some .di := by decide
theorem test_decode_svc : decodeTableWord 16 0xF000 = some .svc := by decide
theorem test_decode_halt : decodeTableWord 16 0xFF00 = some .halt := by decide
theorem test_decode_ffff : decodeTableWord 16 0xFFFF = none := by decide

/-- Part 2.1: the first word alone says why it has no instruction. -/
theorem test_decode_reasons :
    decode [0x00, 0x01] = .reserved .mustBeZero ∧ decode [0xA0, 0xD0] = .reserved .jumpConditionD ∧
      decode [0x78, 0x00] = .undefined [] ∧ decode [0x15, 0x00, 0xAB] = .undefined [0xAB] ∧ decode [0xA2, 0x00] = .undefined [] ∧
      decode [0x08, 0x10] = .truncated ∧ decode [0x08] = .truncated := by decide

/-- The jump and CALL words of part 1.2, printed in the source. -/
theorem test_encode_printed_words :
    encode (.jzDir 0x200) = [0xA000, 0x200] ∧ encode (.jhiIdx 5 3) = [0xA1C3, 5] ∧ encode (.jmpInd 3) = [0xA6F3] ∧
      encode (.callDir 0x300) = [0xA800, 0x300] ∧ encode (.push 13) = [0xC0D0] ∧ encode .svc = [0xF000] := by decide

/-! ## Well-formedness: each check has an ill-formed term that it refuses -/

theorem test_mull_odd_rd_is_ill_formed : (Instr.mullReg 3 4).wellFormed = false := by decide
theorem test_divl_odd_rd_is_ill_formed : (Instr.divlDir 5 0x1000).wellFormed = false := by decide
theorem test_mull_even_rd_is_well_formed : (Instr.mullReg 2 4).wellFormed = true := by decide
theorem test_divl_even_rd_is_well_formed : (Instr.divlImm4 14 3).wellFormed = true := by decide

/-! ## Assembler texts (30_encoding.md R123, R124) and state counts (70_reset_and_hazards.md R392) -/

theorem test_text_of_indexed : instrText (.ldIdx 1 16 2) = "LD G1,16,G2" := by decide
theorem test_text_of_fp : instrText (.ldFp 1 0xE) = "LD G1,-4,FP" := by decide

/-- D42: `0,G12` is Register Indirect, `0,FP` is FP Relative. -/
theorem test_text_of_indirect_and_fp_zero : instrText (.ldInd 1 12) = "LD G1,0,G12" ∧ instrText (.ldFp 1 0) = "LD G1,0,FP" := by decide

theorem test_states_of_div_direct : stateCount (.divlImm4 0 3) State.reset = some 70 := by decide
theorem test_states_of_shift : stateCount (.shlaImm4 0 7) State.reset = some 12 := by decide
theorem test_states_of_svc_are_lost : stateCount .svc State.reset = none := by decide

/-! ## One step -/

/-- The start state of part 2: P = 1, E = 0, the result flags 0, PC = 0100h. SSP is E000h and USP 8000h where a vector names them. -/
def start : State := { State.reset with pc := 0x0100, ssp := 0xE000, usp := 0x8000 }

/-- A register given a value. -/
def withReg (r : RegNum) (w : Word) (s : State) : State := s.setX r w

/-- A word given to memory. -/
def withWord (a w : Word) (s : State) : State := s.withMem (s.mem.writeWord a w)

/-- The flags given values, in the order E P V C S Z. -/
def withFlags (e p v c n z : Bool) (s : State) : State := s.withFlag { e := e, p := p, v := v, c := c, s := n, z := z }

/-- The instruction words placed at PC. -/
def withCode (ws : List Word) (s : State) : State := s.withMem (s.mem.load s.pc (bytesOfWords ws))

/-- A result is a next state with a property. -/
def gives (r : Result) (f : State → Bool) : Bool :=
  match r with
  | .next t => f t
  | _ => false

/-- A result is a refusal. -/
def refusedAs (r : Result) (x : Refusal) : Bool :=
  match r with
  | .refused y => y == x
  | _ => false

/-- The four result flags, in the order V C S Z. -/
def vcsz (s : State) : List Bool := [s.flag.v, s.flag.c, s.flag.s, s.flag.z]

/-- The word memory holds at an address. -/
def wordAt (s : State) (a : Word) : Option Word := s.mem.readWord a

/-- LS1. -/
theorem test_no_wraps :
    gives (step (withCode [0x0000] ((fun s => s.withPc 0xFFFE) start))) (fun t => t.pc == 0x0000 && t.g == State.reset.g && t.flag == State.reset.flag) = true := by decide

/-- LS2. -/
theorem test_ld_byte_odd :
    gives (step (withCode [0x0F12] (withReg 2 0x1001 (withWord 0x1000 0x80FE start)))) (fun t => t.x 1 == 0x00FE && t.pc == 0x0102 && vcsz t == [false, false, false, false]) = true := by decide

/-- LS3. -/
theorem test_ld_address_before_write :
    gives (step (withCode [0x0E11] (withReg 1 0x3000 (withWord 0x3000 0x4444 start)))) (fun t => t.x 1 == 0x4444) = true := by decide

/-- LS4. -/
theorem test_ld_odd_address :
    gives (step (withCode [0x0E12] (withReg 2 0x3001 (withWord 0xFFF4 0x0500 start)))) (fun t => t.x 1 == 0 && wordAt t 0xDFFE == some 0x0102 && wordAt t 0xDFFC == some 0x0040 && t.ssp == 0xDFFC && t.flag.toWord == 0x0040 && t.pc == 0x0500) = true := by decide

/-- LS5. -/
theorem test_ld_fp_wraps :
    gives (step (withCode [0x0B18] (withReg 12 0x0008 (withWord 0xFFF8 0x7777 start)))) (fun t => t.x 1 == 0x7777) = true := by decide

/-- LS6. -/
theorem test_ld_indexed_wraps :
    gives (step (withCode [0x0910, 0xFFFE] (withReg 0 0x0004 (withWord 0x0002 0x9999 start)))) (fun t => t.x 1 == 0x9999 && t.pc == 0x0104) = true := by decide

/-- LS7, the instruction alone: a user-mode fetch asks the open protection predicate. -/
theorem test_ld_sp_in_user_mode :
    gives (exec (.ldReg 13 0) (withReg 0 0x1234 (withFlags false false false false false false start)))
      (fun t => t.usp == 0x1234 && t.ssp == 0xE000) = true := by decide

/-- LS8. -/
theorem test_ld_usp_privileged :
    gives (step (withCode [0x0CE0] (withReg 0 0x1234 start))) (fun t => t.usp == 0x1234 && t.ssp == 0xE000) = true := by decide

/-- LS10. -/
theorem test_ld_flag :
    gives (step (withCode [0x1400] (withFlags true true true false true false start))) (fun t => t.x 0 == 0x00CA && t.flag.toWord == 0x00CA) = true := by decide

/-- LS11. -/
theorem test_st_byte_odd :
    gives (step (withCode [0x1712] (withReg 2 0x1001 (withReg 1 0xABCD (withWord 0x1000 0x1122 start))))) (fun t => wordAt t 0x1000 == some 0x11CD) = true := by decide

/-- LS12. -/
theorem test_st_byte_even :
    gives (step (withCode [0x1712] (withReg 2 0x1000 (withReg 1 0xABCD (withWord 0x1000 0x1122 start))))) (fun t => wordAt t 0x1000 == some 0xCD22) = true := by decide

/-- LS13. -/
theorem test_st_indexed :
    gives (step (withCode [0x1110, 0x0010] (withReg 0 0x0FF0 (withReg 1 0xBEEF start)))) (fun t => t.byteAt 0x1000 == some 0xBE && t.byteAt 0x1001 == some 0xEF && t.pc == 0x0104) = true := by decide

/-- LS14. -/
theorem test_st_fp :
    gives (step (withCode [0x131F] (withReg 12 0x2000 (withReg 1 0x5A5A start)))) (fun t => wordAt t 0x1FFE == some 0x5A5A) = true := by decide

/-- LS15. -/
theorem test_st_indirect :
    gives (step (withCode [0x1612] (withReg 2 0x3000 (withReg 1 0x0102 start)))) (fun t => t.byteAt 0x3000 == some 0x01 && t.byteAt 0x3001 == some 0x02) = true := by decide

/-- LS16. -/
theorem test_st_rom : refusedAs (step (withCode [0x1000, 0xF000] (withReg 0 1 start))) .romWrite = true := by decide

/-- Part 2.3 to 2.5. -/
theorem test_add_overflow :
    gives (step (withCode [0x1C01] (withReg 1 0x0001 (withReg 0 0x7FFF start)))) (fun t => t.x 0 == 0x8000 && vcsz t == [true, false, true, false]) = true := by decide

/-- Part 2.3 to 2.5. -/
theorem test_add_both :
    gives (step (withCode [0x1C01] (withReg 1 0x8000 (withReg 0 0x8000 start)))) (fun t => t.x 0 == 0x0000 && vcsz t == [true, true, false, true]) = true := by decide

/-- Part 2.3 to 2.5. -/
theorem test_sub_borrow :
    gives (step (withCode [0x2401] (withReg 1 0x0001 (withReg 0 0x0000 start)))) (fun t => t.x 0 == 0xFFFF && vcsz t == [false, true, true, false]) = true := by decide

/-- Part 2.3 to 2.5. -/
theorem test_sub_overflow :
    gives (step (withCode [0x2401] (withReg 1 0x0001 (withReg 0 0x8000 start)))) (fun t => t.x 0 == 0x7FFF && vcsz t == [true, false, false, false]) = true := by decide

/-- Part 2.3 to 2.5. -/
theorem test_cmp :
    gives (step (withCode [0x2C01] (withReg 1 0x8000 (withReg 0 0x7FFF start)))) (fun t => t.x 0 == 0x7FFF && vcsz t == [true, true, true, false]) = true := by decide

/-- Part 2.3 to 2.5. -/
theorem test_and :
    gives (step (withCode [0x3401] (withFlags false true true true false false (withReg 1 0x0F0F (withReg 0 0x00FF start))))) (fun t => t.x 0 == 0x000F && vcsz t == [false, false, false, false]) = true := by decide

/-- Part 2.3 to 2.5. -/
theorem test_or :
    gives (step (withCode [0x3C01] (withReg 1 0xC000 (withReg 0 0x1234 start)))) (fun t => t.x 0 == 0xD234 && vcsz t == [false, false, true, false]) = true := by decide

/-- Part 2.3 to 2.5. -/
theorem test_xor :
    gives (step (withCode [0x4401] (withReg 1 0x8000 (withReg 0 0x8000 start)))) (fun t => t.x 0 == 0x0000 && vcsz t == [false, false, false, true]) = true := by decide

/-- Part 2.3 to 2.5. -/
theorem test_adds :
    gives (step (withCode [0x4C01] (withReg 1 0x0001 (withReg 0 0x7FFF start)))) (fun t => t.x 0 == 0x8001 && vcsz t == [true, false, true, false]) = true := by decide

/-- Part 2.3 to 2.5. -/
theorem test_adds_loses_bit_15 :
    gives (step (withCode [0x4C01] (withReg 1 0x8000 (withReg 0 0x8000 start)))) (fun t => t.x 0 == 0x8000 && vcsz t == [false, false, true, false]) = true := by decide

/-- AL1. -/
theorem test_add_byte :
    gives (step (withCode [0x1F01] (withReg 1 0x2001 (withReg 0 0x0100 (withWord 0x2000 0x00FF start))))) (fun t => t.x 0 == 0x01FF && vcsz t == [false, false, false, false]) = true := by decide

/-- AL2. -/
theorem test_sub_fp :
    gives (step (withCode [0x2307] (withReg 12 0x2000 (withReg 0 0x0100 (withWord 0x200E 0x0001 start))))) (fun t => t.x 0 == 0x00FF) = true := by decide

/-- AL3. -/
theorem test_add_imm4 :
    gives (step (withCode [0x1D08] (withReg 0 0x0100 start))) (fun t => t.x 0 == 0x00F8 && vcsz t == [false, true, false, false]) = true := by decide

/-- AL4. -/
theorem test_or_direct :
    gives (step (withCode [0x3850, 0x3000] (withReg 5 0x00F0 (withWord 0x3000 0x0F0F start)))) (fun t => t.x 5 == 0x0FFF && t.pc == 0x0104) = true := by decide

/-- AL5. -/
theorem test_adds_indexed :
    gives (step (withCode [0x4934, 0x3002] (withReg 4 0x0002 (withReg 3 0x1000 (withWord 0x3004 0x0003 start))))) (fun t => t.x 3 == 0x1006 && t.pc == 0x0104) = true := by decide

/-- AL7. -/
theorem test_xor_imm4 :
    gives (step (withCode [0x452F] (withReg 2 0x00FF start))) (fun t => t.x 2 == 0xFF00 && vcsz t == [false, false, true, false]) = true := by decide

/-- AL8. -/
theorem test_and_immediate :
    gives (step (withCode [0x3200, 0x0FF0] (withReg 0 0xF0F0 start))) (fun t => t.x 0 == 0x00F0) = true := by decide

/-- Part 2.3 to 2.5. -/
theorem test_mul :
    gives (step (withCode [0x5401] (withFlags false true true true false false (withReg 1 0x0100 (withReg 0 0x0100 start))))) (fun t => t.x 0 == 0x0000 && vcsz t == [false, false, false, true]) = true := by decide

/-- Part 2.3 to 2.5. -/
theorem test_div :
    gives (step (withCode [0x5C01] (withFlags false true true true false false (withReg 1 0x0002 (withReg 0 0xFFFF start))))) (fun t => t.x 0 == 0x7FFF && vcsz t == [false, false, false, false]) = true := by decide

/-- Part 2.3 to 2.5. -/
theorem test_mod :
    gives (step (withCode [0x6401] (withFlags false true true true false false (withReg 1 0xFFFF (withReg 0 0x8000 start))))) (fun t => t.x 0 == 0x8000 && vcsz t == [false, false, true, false]) = true := by decide

/-- Part 2.4. -/
theorem test_mull :
    gives (step (withCode [0x6C24] (withReg 4 0x03E8 (withReg 2 0xC350 (withFlags false true true true false false start))))) (fun t => t.x 3 == 0x02FA && t.x 2 == 0xF080 && vcsz t == [false, false, true, false]) = true := by decide

/-- Part 2.4. -/
theorem test_divl :
    gives (step (withCode [0x7424] (withReg 4 0x0003 (withReg 3 0x0001 (withFlags false true true true false false start))))) (fun t => t.x 2 == 0x5555 && t.x 3 == 0x0001 && vcsz t == [false, false, false, false]) = true := by decide

/-- Part 2.4, last row: the machine goes on, G2, G3 and the flags hold any value, the rest is as before (U7). -/
theorem test_divl_without_room :
    gives (step (withCode [0x7424] (withReg 4 0x0003 (withReg 3 0x0003 start)))) (fun t => t.x 4 == 3 && t.pc == 0x0102 && t.ssp == 0xE000 && t.flag.p && !t.flag.e) = true := by decide

/-- MD1. -/
theorem test_mull_odd_rd : refusedAs (step (withCode [0x6C34] (withReg 3 2 start))) .oddPair = true := by decide

/-- MD5. -/
theorem test_div_by_zero :
    gives (step (withCode [0x5C01] (withWord 0xFFF8 0x0400 (withReg 0 0x1234 (withFlags true true false true true false start))))) (fun t => t.x 0 == 0x1234 && wordAt t 0xDFFE == some 0x0102 && wordAt t 0xDFFC == some 0x00C6 && t.ssp == 0xDFFC && t.flag.toWord == 0x0046 && t.pc == 0x0400) = true := by decide

/-- Part 2.3 to 2.5. -/
theorem test_shla :
    gives (step (withCode [0x8401] (withFlags false true true true false false (withReg 1 0x0004 (withReg 0 0xF00F start))))) (fun t => t.x 0 == 0x00F0 && vcsz t == [false, true, false, false]) = true := by decide

/-- Part 2.3 to 2.5. -/
theorem test_shll :
    gives (step (withCode [0x8C01] (withFlags false true true true false false (withReg 1 0x000F (withReg 0 0x8001 start))))) (fun t => t.x 0 == 0x8000 && vcsz t == [false, false, true, false]) = true := by decide

/-- Part 2.3 to 2.5. -/
theorem test_shra :
    gives (step (withCode [0x9401] (withFlags false true true true false false (withReg 1 0x0001 (withReg 0 0x8005 start))))) (fun t => t.x 0 == 0xC002 && vcsz t == [false, true, true, false]) = true := by decide

/-- Part 2.3 to 2.5. -/
theorem test_shrl :
    gives (step (withCode [0x9C01] (withFlags false true true true false false (withReg 1 0x0001 (withReg 0 0x8001 start))))) (fun t => t.x 0 == 0x4000 && vcsz t == [false, true, false, false]) = true := by decide

/-- Part 2.3 to 2.5. -/
theorem test_shrl_by_0 :
    gives (step (withCode [0x9C01] (withFlags false true true true false false (withReg 1 0x0000 (withReg 0 0x8001 start))))) (fun t => t.x 0 == 0x8001 && vcsz t == [false, false, true, false]) = true := by decide

/-- Part 2.5. -/
theorem test_shra_imm4 :
    gives (step (withCode [0x9524] (withReg 2 0xF080 start))) (fun t => t.x 2 == 0xFF08 && vcsz t == [false, false, true, false]) = true := by decide

/-- Part 2.5 with a count of FFFFh: what log 13 leaves fixed. -/
theorem test_shll_by_65535_goes_on :
    gives (step (withCode [0x8D0F] (withReg 5 7 (withReg 0 1 start)))) (fun t => t.pc == 0x0102 && t.x 5 == 7 && t.flag.p && !t.flag.e) = true := by decide

/-- JC1. -/
theorem test_jmp_indexed_wraps :
    gives (step (withCode [0xA1F2, 0x0010] (withReg 2 0xFFF8 start))) (fun t => t.pc == 0x0008) = true := by decide

/-- JC2. -/
theorem test_jz_taken :
    gives (step (withCode [0xA603] (withReg 3 0x0400 (withFlags false true false false false true start)))) (fun t => t.pc == 0x0400) = true := by decide

/-- JC3. -/
theorem test_jz_not_taken :
    gives (step (withCode [0xA603] (withReg 3 0x0400 start))) (fun t => t.pc == 0x0102) = true := by decide

/-- JC4, the step after the jump. -/
theorem test_odd_fetch :
    gives (step (withCode [] (withWord 0xFFF4 0x0500 ((fun s => s.withPc 0x0401) start)))) (fun t => wordAt t 0xDFFE == some 0x0401 && wordAt t 0xDFFC == some 0x0040 && t.ssp == 0xDFFC && t.pc == 0x0500) = true := by decide

/-- JC5, U12 (NO with a non-zero field). -/
theorem test_reserved_words :
    refusedAs (step (withCode [0xA0D0, 0x0200] start)) .jumpConditionD = true ∧
      refusedAs (step (withCode [0x0010] start)) .mustBeZero = true := by decide

/-- JC6. -/
theorem test_call_direct :
    gives (step (withCode [0xA800, 0x0300] start)) (fun t => wordAt t 0xDFFE == some 0x0104 && t.ssp == 0xDFFE && t.pc == 0x0300) = true := by decide

/-- JC7. -/
theorem test_call_indirect :
    gives (step (withCode [0xAE03] (withReg 3 0x0300 start))) (fun t => wordAt t 0xDFFE == some 0x0102 && t.ssp == 0xDFFE && t.pc == 0x0300) = true := by decide

/-- Four rows of the truth table of part 2.6, V C S Z = 0000, 0110, 1001, 1111, over the conditions in the order of their codes. -/
theorem test_condition_table :
    ([(false, false, false, false), (false, true, true, false), (true, false, false, true), (true, true, true, true)].map fun f =>
      [Cond.z, .c, .m, .o, .gt, .ge, .le, .lt, .nz, .nc, .nm, .no, .hi, .ls, .always].map fun cc =>
        condHolds cc { e := false, p := true, v := f.1, c := f.2.1, s := f.2.2.1, z := f.2.2.2 }) =
    [[false, false, false, false, true, true, false, false, true, true, true, true, true, false, true],
      [false, true, true, false, false, false, true, true, true, false, false, true, false, true, true],
      [true, false, false, true, false, false, true, true, false, true, true, false, false, true, true],
      [true, true, true, true, false, true, true, false, false, false, false, false, false, true, true]] := by decide

/-- IO1. -/
theorem test_in_word :
    gives (step (withCode [0xB000, 0x0008] ((fun s => s.withIoAnswers [0x0041]) start))) (fun t => t.x 0 == 0x0041 && t.pc == 0x0104 && t.ioTrace == [.input 0x08 2 0x0041]) = true := by decide

/-- IO2. -/
theorem test_in_byte :
    gives (step (withCode [0xB712] (withReg 2 0x0009 ((fun s => s.withIoAnswers [0x0041]) start)))) (fun t => t.x 1 == 0x0041 && t.pc == 0x0102) = true := by decide

/-- IO3. -/
theorem test_in_address_high_bits :
    gives (step (withCode [0xB612] (withReg 2 0x01F4 ((fun s => s.withIoAnswers [0x8000]) start)))) (fun t => t.x 1 == 0x8000) = true := by decide

/-- IO4. -/
theorem test_out_word :
    gives (step (withCode [0xB810, 0x0008] (withReg 1 0x0041 start))) (fun t => t.ioTrace == [.output 0x08 2 0x0041] && t.pc == 0x0104) = true := by decide

/-- IO5. -/
theorem test_out_byte :
    gives (step (withCode [0xBF12] (withReg 2 0x0009 (withReg 1 0x1241 start)))) (fun t => t.ioTrace == [.output 0x09 1 0x0041]) = true := by decide

/-- R345: port F4h is the lower-limit register. -/
theorem test_out_lower_limit :
    gives (step (withCode [0xB810, 0x00F4] (withReg 1 0x8000 start))) (fun t => t.lowerLimit == 0x8000 && t.upperLimit == 0) = true := by decide

/-- IO6. -/
theorem test_in_odd_port : refusedAs (step (withCode [0xB000, 0x0009] start)) .oddIoPort = true := by decide

/-- The start state in user mode, PC past a one-word instruction at 0100h. -/
def userStart : State := withFlags false false false false false false (start.withPc 0x0102)

/-- IO7, the instruction alone, PC past its two words. -/
theorem test_in_user_mode :
    gives (exec (.inDir 0 0x0008) (withWord 0xFFFA 0x0600 (userStart.withPc 0x0104)))
      (fun t => wordAt t 0xDFFE == some 0x0104 && wordAt t 0xDFFC == some 0x0000 && t.ssp == 0xDFFC && t.usp == 0x8000 &&
        t.flag.toWord == 0x0040 && t.pc == 0x0600 && t.ioTrace == []) = true := by decide

/-- ST1. -/
theorem test_push :
    gives (step (withCode [0xC030] (withReg 3 0xBEEF start))) (fun t => t.ssp == 0xDFFE && wordAt t 0xDFFE == some 0xBEEF && t.pc == 0x0102) = true := by decide

/-- ST2. -/
theorem test_pop :
    gives (step (withCode [0xC440] (withWord 0xDFFE 0xBEEF ((fun s => s.withSsp 0xDFFE) start)))) (fun t => t.x 4 == 0xBEEF && t.ssp == 0xE000) = true := by decide

/-- ST3. -/
theorem test_push_usp :
    gives (step (withCode [0xC0E0] start)) (fun t => wordAt t 0xDFFE == some 0x8000 && t.ssp == 0xDFFE && t.usp == 0x8000) = true := by decide

/-- ST4, and its counterpart for POP (U15). -/
theorem test_push_pop_sp_refused :
    refusedAs (step (withCode [0xC0D0] start)) .stackPointerOperand = true ∧
      refusedAs (step (withCode [0xC4D0] start)) .stackPointerOperand = true := by decide

/-- ST5, the instruction alone. -/
theorem test_push_usp_in_user_mode_refused : refusedAs (exec (.push 14) userStart) .stackPointerOperand = true := by decide

/-- ST6. -/
theorem test_push_wraps :
    gives (step (withCode [0xC030] (withReg 3 0x0001 ((fun s => s.withSsp 0) start)))) (fun t => t.ssp == 0xFFFE && wordAt t 0xFFFE == some 0x0001) = true := by decide

/-- ST7. -/
theorem test_push_odd_sp :
    refusedAs (step (withCode [0xC030] (withWord 0xFFF4 0x0500 (start.withSsp 0xE001)))) .trapEntryFault = true := by decide

/-- ST8. -/
theorem test_ret :
    gives (step (withCode [0xD000] (withWord 0xDFFE 0x0104 ((fun s => s.withSsp 0xDFFE) start)))) (fun t => t.pc == 0x0104 && t.ssp == 0xE000) = true := by decide

/-- ST9. -/
theorem test_reti :
    gives (step (withCode [0xD400] (withWord 0xDFFE 0x1234 (withWord 0xDFFC 0x0081 ((fun s => s.withSsp 0xDFFC) start))))) (fun t => t.flag.toWord == 0x0081 && t.pc == 0x1234 && t.ssp == 0xE000) = true := by decide

/-- ST10. -/
theorem test_reti_reserved_bits :
    gives (step (withCode [0xD400] (withWord 0xDFFE 0x1234 (withWord 0xDFFC 0xFFFF ((fun s => s.withSsp 0xDFFC) start))))) (fun t => t.flag.toWord == 0x00CF && t.pc == 0x1234 && t.ssp == 0xE000) = true := by decide

/-- SY1. -/
theorem test_ei :
    gives (step (withCode [0xE000] start)) (fun t => t.flag.toWord == 0x00C0 && t.pc == 0x0102) = true := by decide

/-- SY2. -/
theorem test_di :
    gives (step (withCode [0xE400] (withFlags true true false false false true start))) (fun t => t.flag.toWord == 0x0041 && t.pc == 0x0102) = true := by decide

/-- SY3, the instruction alone. -/
theorem test_ei_user_mode :
    gives (exec .ei (withWord 0xFFFA 0x0600 userStart)) (fun t => wordAt t 0xDFFE == some 0x0102 && wordAt t 0xDFFC == some 0x0000 &&
      t.ssp == 0xDFFC && t.flag.toWord == 0x0040 && t.pc == 0x0600) = true := by decide

/-- SY4, the instruction alone. -/
theorem test_svc :
    gives (exec .svc (withWord 0xFFFE 0xF100 (withFlags true false false false false false (start.withPc 0x2002))))
      (fun t => wordAt t 0xDFFE == some 0x2002 && wordAt t 0xDFFC == some 0x0080 && t.ssp == 0xDFFC && t.flag.toWord == 0x0040 &&
        t.pc == 0xF100 && t.usp == 0x8000) = true := by decide

/-- SY5. -/
theorem test_halt :
    gives (step (withCode [0xFF00] ((fun s => s.withPc 0x0014) start))) (fun t => t.pc == 0x0016 && t.halted) = true := by decide

/-- SY5: no further step. -/
theorem test_halted_takes_no_step : step (start.withHalted true) = .fault .halted := rfl

/-- SY6. -/
theorem test_undefined_instruction :
    gives (step (withCode [0x7800] (withWord 0xFFFC 0x0700 (withFlags false true false false false true start)))) (fun t => wordAt t 0xDFFE == some 0x0102 && wordAt t 0xDFFC == some 0x0041 && t.ssp == 0xDFFC && t.flag.toWord == 0x0041 && t.pc == 0x0700) = true := by decide

/-- SY7. -/
theorem test_undefined_instruction_one_word :
    gives (step (withCode [0x1200, 0x0000] (withWord 0xFFFC 0x0700 (withFlags false true false false false true start)))) (fun t => wordAt t 0xDFFE == some 0x0102) = true := by decide

/-- Part 2.10, step 5: the boundary takes the Timer0 request instead of a fetch. -/
theorem test_interrupt_taken :
    gives (step (withWord 0xFFE0 0x0030 (withFlags true true false false false false ((start.withPc 0x0104).withRequests [0x001]))))
      (fun t => wordAt t 0xDFFE == some 0x0104 && wordAt t 0xDFFC == some 0x00C0 && t.ssp == 0xDFFC && t.flag.toWord == 0x0040 &&
        t.pending == 0 && t.pc == 0x0030) = true := by decide

/-- Part 2.10, last sentence: with E = 0 the request stays pending. -/
theorem test_interrupt_not_enabled :
    gives (step (withCode [0x1D01] (start.withRequests [0x001]))) (fun t => t.pending == 0x001 && t.x 0 == 1) = true := by decide

/-- 10_state.md R37: a byte that nothing has written holds no value. -/
theorem test_unwritten_byte : step State.reset = .fault .unwrittenByte := rfl

/-- The instruction placed where step fetches runs as the first one after reset: 0D35h is LD G3,#5. -/
theorem test_first_instruction_after_reset :
    gives (step (State.reset.withFetchWord 16 0x0D35)) (fun t => t.x 3 == 5 && t.pc == 0xF002) = true := by decide

/-! ## Witnesses: states and operands that meet the hypotheses of the statements, clause by clause, at boundary values -/

/-- A state with words at the ends of the regions that may be read or written, and at every vector. -/
def full : State :=
  withWord 0x0000 0x1122 <| withWord 0xDFFE 0x3344 <| withWord 0xF000 0x5566 <| withWord 0xFFFE 0xF100 <| withWord 0xFFF4 0x0500 <|
    withWord 0xFFF6 0x0510 <| withWord 0xFFF8 0x0520 <| withWord 0xFFFA 0x0530 <| withWord 0xFFFC 0x0540 <| withWord 0xFFE0 0x0550 <|
    withWord 0xFFF2 0x0560 <| withReg 2 0xDFFE <| withReg 12 0x0010 start

theorem trapReady_full_10 : trapReady 10 full := ⟨by decide, by decide, by decide, 0x0500, by decide, by decide⟩
theorem trapReady_full_11 : trapReady 11 full := ⟨by decide, by decide, by decide, 0x0510, by decide, by decide⟩
theorem trapReady_full_12 : trapReady 12 full := ⟨by decide, by decide, by decide, 0x0520, by decide, by decide⟩
theorem trapReady_full_15 : trapReady 15 full := ⟨by decide, by decide, by decide, 0xF100, by decide, by decide⟩

/-- The state in user mode. -/
def fullUser : State := withFlags true false true true true true full

theorem trapReady_fullUser_13 : trapReady 13 fullUser := ⟨by decide, by decide, by decide, 0x0530, by decide, by decide⟩

theorem witness_DecodedBytesAreTheEncoding :
    decode [0x08, 0x10, 0x12, 0x34, 0xAB] = .instr (.ldDir 1 0x1234) [0xAB] ∧ decode [0xFF, 0x00] = .instr .halt [] := by decide

theorem test_one_or_two_words :
    encode .no = [0x0000] ∧ encode (.ldDir 1 7) = [0x0810, 7] ∧ encode (.ldImm 1 7) = [0x0A10, 7] ∧ encode (.ldFp 1 0) = [0x0B10] ∧
      encode (.outDir 1 7) = [0xB810, 7] ∧ encode (.outInd 1 2) = [0xBE12] ∧ encode (.push 0) = [0xC000] := by decide

theorem witness_JumpRowAndConditionCodes :
    ((0x0, Cond.z) ∈ [(0x0, Cond.z), (0xF, .always)] ∧ condTable .always start.flag ∧ ¬ condTable .z start.flag) ∧
      condTable .gt start.flag :=
  ⟨⟨by decide, trivial, by simp [condTable]; decide⟩, rfl, rfl⟩

theorem witness_StackPointerSelectedByMode : full.flag.p = true ∧ fullUser.flag.p = false := by decide

theorem witness_RegisterReadAfterWrite :
    (fullUser.reg 14 = fullUser.reg 13 ∧ full.reg 14 ≠ full.reg 13) ∧ ((0#4).toNat < 13 ∧ (12#4).toNat < 13 ∧ full.reg 12 = full.reg 12) ∧
      fullUser.flag.p = false := by decide

theorem witness_MemoryOperandsReadTheirAddress :
    readableWord full .read 0xDFFE 0x3344 ∧ readableWord full .read 0xF000 0x5566 ∧ readableWord full .read 0xFFFE 0xF100 ∧
      readableWord full .read (BitVec.ofNat 16 ((0x2002#16).toNat + (full.x 2).toNat)) 0x1122 ∧
      readableWord full .read (BitVec.ofInt 16 ((full.x 12#4).toInt + 2 * (8#4).toInt)) 0x1122 ∧
      readableWord full .read (full.x 2) 0x3344 ∧ readableByte full (full.x 2) 0x33 ∧ readableByte full 0xDFFF 0x44 := by
  refine ⟨?_, ?_, ?_, ?_, ?_, ?_, ?_, ?_⟩ <;> (first | unfold readableWord | unfold readableByte) <;> decide

theorem witness_StoreTargetsOfEachMode : encode (.ofSt 1 (.byteIndirect 2)) = [0x1712] := by decide

theorem witness_FpDisplacementDoublesBack :
    (∃ d4, fpForm (-16) = .fpRel d4) ∧ (∃ d4, fpForm 14 = .fpRel d4) ∧ (∃ x, fpForm (-17) = .indexed x 12) ∧
      (∃ x, fpForm 15 = .indexed x 12) ∧ (∃ x, fpForm 16 = .indexed x 12) ∧ (∃ x, fpForm (-32768) = .indexed x 12) ∧
      (∃ x, fpForm 65535 = .indexed x 12) ∧ immForm (-8) = .imm4 8 ∧ immForm 7 = .imm4 7 ∧ immForm 8 = .immediate 8 :=
  ⟨⟨8, by decide⟩, ⟨7, by decide⟩, ⟨0xFFEF, by decide⟩, ⟨15, by decide⟩, ⟨16, by decide⟩, ⟨0x8000, by decide⟩, ⟨0xFFFF, by decide⟩,
    by decide, by decide, by decide⟩

theorem writableWord_ends :
    writableWord full 0x0000 ∧ writableWord full 0xDFFE ∧ writableWord full 0xFFE0 ∧ writableWord full 0xFFFE := by
  refine ⟨?_, ?_, ?_, ?_⟩ <;> unfold writableWord <;> decide

theorem writableByte_ends : writableByte full 0xDFFE ∧ writableByte full 0xDFFF ∧ writableByte full 0xFFE0 ∧ writableByte full 0xFFFF := by
  refine ⟨?_, ?_, ?_, ?_⟩ <;> unfold writableByte <;> decide

theorem witness_WordWriteIsTwoBytesBigEndian : writableWord full 0xDFFE ∧ writableWord full 0xFFE0 :=
  ⟨writableWord_ends.2.1, writableWord_ends.2.2.1⟩

theorem witness_ByteWriteKeepsTheOtherByte :
    (writableByte full 0xDFFE ∧ full.mem.readWord (0xDFFE#16 &&& 0xFFFE#16) = some 0x3344) ∧
      writableByte full 0xDFFF ∧ full.mem.readWord (0xDFFF#16 &&& 0xFFFE#16) = some 0x3344 :=
  ⟨⟨writableByte_ends.1, by decide⟩, writableByte_ends.2.1, by decide⟩

/-- The clauses of a rejected access are met by the values of the open predicate `Config.userProtect` that reject something: the last part
says so for each of them. -/
theorem witness_WordAccessChecks :
    ((0xFFFF#16).toNat % 2 = 1 ∧ full.flag.p = true) ∧
      (full.rejects .read 0xE000 = false ∧ full.rejects .read 0xEFFE = false ∧ full.rejects .write 0xF000 = false ∧
        full.rejects .write 0xFFDE = false) ∧
      ∀ a kind, Config.userProtect 0 0 a kind = true → fullUser.rejects kind a = true :=
  ⟨by decide, by decide, fun _ _ h => h⟩

/-- An operand is found in each mode. -/
theorem operand_found :
    operand full (.direct 0xDFFE) = .ok 0x3344 ∧ operand full (.indexed 0x2002 2) = .ok 0x1122 ∧
      operand full (.immediate 0xFFFF) = .ok 0xFFFF ∧ operand full (.fpRel 8) = .ok 0x1122 ∧ operand full (.register 12) = .ok 0x0010 ∧
      operand full (.imm4 8) = .ok 0xFFF8 ∧ operand full (.indirect 2) = .ok 0x3344 ∧ operand full (.byteIndirect 2) = .ok 0x0033 := by
  decide

theorem witness_LoadWritesRdOnly : operand full (.direct 0xDFFE) = .ok 0x3344 := operand_found.1
theorem witness_AddResultAndFlags : operand full (.indexed 0x2002 2) = .ok 0x1122 := operand_found.2.1
theorem witness_SubResultAndFlags : operand full (.fpRel 8) = .ok 0x1122 := operand_found.2.2.2.1
theorem witness_CmpSetsFlagsOnly : operand full (.immediate 0xFFFF) = .ok 0xFFFF := operand_found.2.2.1
theorem witness_LogicResultsAndFlags : operand full (.register 12) = .ok 0x0010 := operand_found.2.2.2.2.1
theorem witness_AddsAddsTheDoubledOperand :
    operand full (.imm4 8) = .ok 0xFFF8 ∧ (0xFFF0#16).toNat = 2 * (0xFFF8#16).toNat % 65536 := by decide
theorem witness_MulGivesTheLowWord : operand full (.byteIndirect 2) = .ok 0x0033 := operand_found.2.2.2.2.2.2.2

theorem witness_StoreWritesItsTargetOnly :
    ((storeTarget full (.direct 0xDFFE)).2 = 2 ∧ writableWord full (storeTarget full (.direct 0xDFFE)).1) ∧
      (storeTarget full (.byteIndirect 2)).2 = 1 ∧ writableByte full (storeTarget full (.byteIndirect 2)).1 :=
  ⟨⟨rfl, writableWord_ends.2.1⟩, rfl, by unfold writableByte; decide⟩

theorem witness_CompareThenJumpDecidesTheOrder :
    operand full (.imm4 7) = .ok 7 ∧ exec (.ofEa .cmp 0 (.imm4 7)) full = .next (full.withVcsz (flagsSub 0 7)) :=
  ⟨rfl, rfl⟩

theorem witness_DivAndModGiveQuotientAndRemainder : operand full (.imm4 1) = .ok 1 ∧ (1#16).toNat ≠ 0 := by decide

theorem witness_MullGivesTheWholeProduct :
    (14#4).toNat % 2 = 0 ∧ operand full (.imm4 15) = .ok 0xFFFF ∧ (15#4).toNat % 2 = 1 := by decide

theorem witness_DivlGivesQuotientAndRemainder :
    ((0#4).toNat % 2 = 0 ∧ operand full (.imm4 1) = .ok 1 ∧ (full.x (0#4 + 1#4)).toNat < (1#16).toNat) ∧ (13#4).toNat % 2 = 1 := by decide

theorem witness_DivlWithoutRoomStillCompletes :
    (2#4).toNat % 2 = 0 ∧ operand (withReg 3 5 full) (.imm4 5) = .ok 5 ∧ (5#16).toNat ≠ 0 ∧
      (5#16).toNat ≤ ((withReg 3 5 full).x (2#4 + 1#4)).toNat := by decide

theorem witness_ZeroDivideTraps : operand full (.imm4 0) = .ok 0#16 ∧ trapReady 12 full ∧ (0#4).toNat % 2 = 0 :=
  ⟨by decide, trapReady_full_12, by decide⟩

theorem witness_ShiftResultsUpToFifteen :
    (operand full (.imm4 0) = .ok 0 ∧ (0#16).toNat = 0 ∧ 0 ≤ 15) ∧ operand full (.immediate 15) = .ok 15 ∧ (15#16).toNat = 15 := by decide

theorem witness_ShiftBySixteenOrMoreStillCompletes :
    operand full (.immediate 16) = .ok 16 ∧ 16 ≤ (16#16).toNat ∧ operand full (.imm4 15) = .ok 0xFFFF := by decide

theorem witness_JumpsChangeOnlyPc : condTable .nz full.flag ∧ ¬ condTable .z full.flag := ⟨rfl, by simp [condTable]; decide⟩

theorem witness_CallPushesTheReturnAddress : writableWord full (full.x 13#4 - 2#16) := by unfold writableWord; decide

theorem witness_InReadsWhatTheEnvironmentAnswers :
    (full.flag.p = true ∧ (0x08#8).toNat = (ioPort full (.direct 0x0108)).1.toNat % 256 ∧ 2 = (ioPort full (.direct 0x0108)).2 ∧
      (0x08#8).toNat % 2 = 0 ∧ (0x08#8).toNat ∈ byteRegisterPorts) ∧
    ((0xFE#8).toNat = (ioPort full (.byteIndirect 2)).1.toNat % 256 ∧ 1 = (ioPort full (.byteIndirect 2)).2) ∧
    (full.withIoAnswers [0xABCD]).ioAnswers = 0xABCD :: [] := by decide

theorem witness_OutSendsRdAndSetsTheLimits :
    (full.flag.p = true ∧ (0xF4#8).toNat = (ioPort full (.direct 0x00F4)).1.toNat % 256 ∧ 2 = (ioPort full (.direct 0x00F4)).2 ∧
      (0xF4#8).toNat % 2 = 0) ∧
    (0xF7#8).toNat = (ioPort (withReg 2 0xF7 full) (.byteIndirect 2)).1.toNat % 256 ∧
      1 = (ioPort (withReg 2 0xF7 full) (.byteIndirect 2)).2 := by decide

theorem witness_OddPortWordAccessIsRefused :
    full.flag.p = true ∧ (ioPort full (.direct 0x0001)).2 = 2 ∧ (ioPort full (.direct 0x00FF)).1.toNat % 2 = 1 := by decide

theorem witness_PrivilegedInstructionsTrapInUserMode : fullUser.flag.p = false ∧ trapReady 13 fullUser :=
  ⟨by decide, trapReady_fullUser_13⟩

theorem witness_EiDiWriteOnlyE : full.flag.p = true := by decide
theorem witness_HaltStopsTheMachine : full.flag.p = true ∧ (full.withHalted true).halted = true := by decide

theorem witness_PushStoresAtTheNewTop :
    (full.reg 14 ≠ full.reg 13#4 ∧ writableWord full (full.x 13#4 - 2#16)) ∧ full.reg 13 = full.reg 13#4 ∧
      fullUser.reg 14 = fullUser.reg 13#4 :=
  ⟨⟨by decide, witness_CallPushesTheReturnAddress⟩, by decide, by decide⟩

/-- The state with SSP at DFFCh, where memory holds two words. -/
def stacked : State := withWord 0xDFFC 0x00C1 (full.withSsp 0xDFFC)

theorem stacked_top : readableWord stacked .read (stacked.x 13#4) 0x00C1 := by unfold readableWord; decide

theorem witness_PopTakesTheTop :
    (stacked.reg 15 ≠ stacked.reg 13#4 ∧ readableWord stacked .read (stacked.x 13#4) 0x00C1) ∧ stacked.reg 13 = stacked.reg 13#4 ∧
      fullUser.reg 14 = fullUser.reg 13#4 :=
  ⟨⟨by decide, stacked_top⟩, by decide, by decide⟩

theorem witness_RetTakesPcFromTheStack : readableWord stacked .read (stacked.x 13#4) 0x00C1 := stacked_top

theorem witness_RetiRestoresFlagAndPc :
    stacked.flag.p = true ∧ readableWord stacked .read stacked.ssp 0x00C1 ∧ readableWord stacked .read (stacked.ssp + 2#16) 0x3344 :=
  ⟨by decide, by unfold readableWord; decide, by unfold readableWord; decide⟩

theorem witness_TrapEntryAndSvcEffect :
    trapReady (Cause.exception .addressError).number full ∧ trapReady (Cause.interrupt 0).number full ∧
      trapReady (Cause.interrupt 9).number full ∧ trapReady 15 full :=
  ⟨trapReady_full_10, ⟨by decide, by decide, by decide, 0x0550, by decide, by decide⟩,
    ⟨by decide, by decide, by decide, 0x0560, by decide, by decide⟩, trapReady_full_15⟩

/-- An access that the protection rejects is one in user mode, for the values of the open predicate that reject it. -/
theorem rejects_fullUser {kind : AccessKind} {a : Word} (h : Config.userProtect 0 0 a kind = true) : fullUser.rejects kind a = true := h

theorem operand_rejected (h : Config.userProtect 0 0 0x2000 .read = true) :
    operand fullUser (.direct 0x2000) = .raised .memoryViolation := by
  have hr : fullUser.rejects .read 0x2000#16 = true := h
  simp [operand, State.readWord, State.checkWord, hr, Access.bind]

theorem trapReady_fullUser_11 : trapReady 11 fullUser := ⟨by decide, by decide, by decide, 0x0510, by decide, by decide⟩

/-- The clauses on a rejected access are met by the values of `Config.userProtect` that reject it (`rejects_fullUser`). -/
theorem witness_FailedOperandAccessTraps :
    (operand full (.direct 0xDFFF) = .raised .addressError ∧ trapReady Exc.addressError.number full) ∧
      ((Config.userProtect 0 0 0x2000 .read = true → operand fullUser (.direct 0x2000) = .raised .memoryViolation) ∧
        trapReady Exc.memoryViolation.number fullUser) ∧
      ((0xDFFF#16).toNat % 2 = 1 ∧ (BitVec.ofNat 16 ((1#16).toNat + (full.x 2).toNat)).toNat % 2 = 1 ∧
        (BitVec.ofInt 16 (((withReg 12 1 full).x 12#4).toInt + 2 * (8#4).toInt)).toNat % 2 = 1) ∧
      ((storeTarget full (.direct 0xDFFF)).2 = 2 ∧ (storeTarget full (.direct 0xDFFF)).1.toNat % 2 = 1 ∧ trapReady 10 full) ∧
      (Config.userProtect 0 0 (fullUser.x 2) .write = true → fullUser.rejects .write (storeTarget fullUser (.byteIndirect 2)).1 = true) ∧
      ((fullUser.x 13#4).toNat % 2 = 0 ∧ fullUser.reg 15 ≠ fullUser.reg 13#4) ∧
      (Config.userProtect 0 0 0x7FFE .write = true → fullUser.rejects .write (fullUser.x 13#4 - 2#16) = true) ∧
      (Config.userProtect 0 0 0x8000 .read = true → fullUser.rejects .read (fullUser.x 13#4) = true) :=
  ⟨⟨by decide, trapReady_full_10⟩, ⟨operand_rejected, trapReady_fullUser_11⟩, by decide, ⟨by decide, by decide, trapReady_full_10⟩,
    rejects_fullUser, by decide, rejects_fullUser, rejects_fullUser⟩

theorem witness_OddStackPointerTraps :
    ((fullUser.withUsp 0x8001).flag.p = false ∧ (fullUser.withUsp 0x8001).usp.toNat % 2 = 1 ∧ trapReady 10 (fullUser.withUsp 0x8001)) ∧
      ((full.withSsp 0xFFFF).flag.p = true ∧ (full.withSsp 0xFFFF).ssp.toNat % 2 = 1) ∧ full.reg 12 ≠ full.reg 13#4 :=
  ⟨⟨by decide, by decide, by decide, by decide, by decide, 0x0500, by decide, by decide⟩, ⟨by decide, by decide⟩, by decide⟩

theorem witness_RetiUndoesTrapEntry :
    gives (trapEntry (.exception .svc) 0x0102 full) (fun t => t.ssp == 0xDFFC) = true ∧
      gives (trapEntry (.interrupt 0) 0x0102 fullUser) (fun t => t.usp == 0x8000) = true := by decide

/-- The state with the two words of LD G1,1234h at PC. -/
def atLd : State := withCode [0x0810, 0x1234] start

theorem witness_StepRunsTheDecodedInstruction :
    atLd.halted = false ∧ noInterrupt atLd.receive ∧
      ∀ (k : Nat) (w : Word), (encode (.ldDir 1 0x1234))[k]? = some w →
        readableWord atLd.receive .fetch (atLd.pc + BitVec.ofNat 16 (2 * k)) w := by
  refine ⟨by decide, .inl (by decide), fun k w h => ?_⟩
  match k, h with
  | 0, h => injection h with h; subst h; unfold readableWord; decide
  | 1, h => injection h with h; subst h; unfold readableWord; decide
  | _ + 2, h => cases h

/-- The word 0001h begins no instruction: its row and column are those of NO, and its Rx field is not zero. -/
theorem encode_ne_0001 (i : Instr) (rest : List Word) : encode i ≠ 0x0001#16 :: rest := by
  intro h
  have h1 : rowField ((encode i).headD 0) = 0 ∧ rxField ((encode i).headD 0) = 1 := by rw [h, List.headD_cons]; decide
  revert h1
  unfold encode
  cases i.view with
  | ea o rd e => cases o <;> simp [View.encode, encodeWith, EaOp.row]
  | _ => simp [View.encode, encodeWith]

/-- The word A0D0h begins no instruction: its row is that of the jumps, and no condition has the code Dh. -/
theorem encode_ne_A0D0 (i : Instr) (rest : List Word) : encode i ≠ 0xA0D0#16 :: rest := by
  intro h
  have h1 : rowField ((encode i).headD 0) = 20 ∧ rdField ((encode i).headD 0) = 13 := by rw [h, List.headD_cons]; decide
  revert h1
  unfold encode
  cases i.view with
  | ea o rd e => cases o <;> simp [View.encode, encodeWith, EaOp.row]
  | jump cc e => cases cc <;> simp [View.encode, encodeWith, Cond.code]
  | _ => simp [View.encode, encodeWith]

/-- The word 0810h at 0100h in user mode, for the values of the open predicate that allow its fetch and reject the next one. -/
def atLdUser : State := withCode [0x0810] ((withFlags false false false false false false start).withPc 0x0100)

theorem readable_atLdUser (h : Config.userProtect 0 0 0x0100 .fetch = false) :
    readableWord atLdUser.receive .fetch atLdUser.pc 0x0810 :=
  ⟨by decide, h, .inl (by decide), by decide, by decide⟩

theorem witness_BadFetchesTrapOrAreRefused :
    (start.halted = false ∧ noInterrupt start.receive ∧ (start.withPc 0xFFFF).pc.toNat % 2 = 1) ∧
      (start.receive.rejects .fetch 0xE000 = false ∧ start.receive.rejects .fetch 0xEFFE = false) ∧
      (atLdUser.halted = false ∧ noInterrupt atLdUser.receive ∧
        (Config.userProtect 0 0 0x0100 .fetch = true → atLdUser.receive.rejects .fetch atLdUser.pc = true)) ∧
      ((∃ i w2, encode i = [0x0810, w2]) ∧
        (Config.userProtect 0 0 0x0100 .fetch = false → readableWord atLdUser.receive .fetch atLdUser.pc 0x0810) ∧
        (Config.userProtect 0 0 0x0102 .fetch = true → atLdUser.receive.rejects .fetch (atLdUser.pc + 2#16) = true)) ∧
      (readableWord (withCode [0x0810] (start.withPc 0xDFFE)).receive .fetch 0xDFFE 0x0810 ∧
        0xE000 ≤ ((0xDFFE#16) + 2#16).toNat ∧ ((0xDFFE#16) + 2#16).toNat < 0xF000) ∧
      (readableWord (withCode [0x78AB] start).receive .fetch start.pc 0x78AB ∧ ((0x78AB#16).extractLsb' 8 8).toNat ∈ blankCells) ∧
      (readableWord (withCode [0x0001] start).receive .fetch start.pc 0x0001 ∧ ((0x0001#16).extractLsb' 8 8).toNat ∉ blankCells) ∧
      ((0xA0D0#16).extractLsb' 8 8).toNat ∉ blankCells ∧
      ∀ i rest, encode i ≠ 0x0001#16 :: rest ∧ encode i ≠ 0xA0D0#16 :: rest :=
  ⟨⟨by decide, .inl (by decide), by decide⟩, by decide, ⟨by decide, .inl (by decide), fun h => h⟩,
    ⟨⟨.ldDir 1 0, 0, by decide⟩, readable_atLdUser, fun h => h⟩, ⟨by unfold readableWord; decide, by decide, by decide⟩,
    ⟨by unfold readableWord; decide, by decide⟩, ⟨by unfold readableWord; decide, by decide⟩,
    by decide, fun i rest => ⟨encode_ne_0001 i rest, encode_ne_A0D0 i rest⟩⟩

/-- The state with E = 1 and a request the environment makes at this boundary. -/
def requested (r : BitVec 10) : State := withFlags true true false false false false (full.withRequests [r])

theorem witness_EnabledPendingInterruptIsTaken :
    ((requested 0x201).halted = false ∧ (requested 0x201).receive.flag.e = true ∧ (requested 0x201).receive.pending ≠ 0) ∧
      ((requested 0x200).receive.flag.e = true ∧
        ∀ m : Fin 10, (requested 0x200).receive.pending.getLsbD m.val = true ↔ m = (9 : Fin 10)) ∧
      (full.withRequests [0x001]).receive.flag.e = false := by
  decide

theorem witness_EveryStepKeepsTheInvariant :
    MemInv (withCode [0x1612] (withReg 2 0x3000 start)) ∧
      gives (step (withCode [0x1612] (withReg 2 0x3000 start))) (fun t => wordAt t 0x3000 == some 0) = true :=
  ⟨by unfold MemInv; decide, by decide⟩

theorem witness_NoStepWritesRomOrReserved :
    gives (step (withCode [0x1000, 0xDFFE] start)) (fun t => wordAt t 0xDFFE == some 0) = true := by decide

/-- A step from user mode that takes a trap: an interrupt, and a fetch at an odd address. A step that stays in user mode is one whose fetch
the open predicate does not reject: the last part shows one for every value of it that allows the fetch. -/
theorem witness_UserModeIsConfined :
    (fullUser.flag.p = false ∧ gives (step (fullUser.withRequests [0x001])) (fun t => t.flag.p && t.pc == 0x0550) = true) ∧
      gives (step (fullUser.withPc 0x0101)) (fun t => t.flag.p && t.pc == 0x0500) = true ∧
      ∀ _ : Config.userProtect 0 0 0x0100 .fetch = false,
        step (withCode [0x0000] (userStart.withPc 0x0100)) = .next ((withCode [0x0000] (userStart.withPc 0x0100)).withPc 0x0102) := by
  refine ⟨by decide, by decide, fun h => ?_⟩
  have hr : ∀ s : State, s.flag.p = false → s.lowerLimit = 0 → s.upperLimit = 0 → s.rejects .fetch 0x0100 = false := by
    intro s hp hl hu
    simp only [State.rejects, hp, hl, hu, Bool.false_eq_true, if_false]
    exact h
  have hw : (withCode [0x0000] (userStart.withPc 0x0100)).readWord .fetch 0x0100 = .ok 0x0000 :=
    State.readWord_ok.2 ⟨State.checkWord_ok.2 ⟨by decide, hr _ rfl rfl rfl, by decide, by decide⟩, by decide⟩
  have hf : fetch (withCode [0x0000] (userStart.withPc 0x0100)) =
      .run .no ((withCode [0x0000] (userStart.withPc 0x0100)).withPc 0x0102) := by
    unfold fetch State.fetchWord
    rw [show (withCode [0x0000] (userStart.withPc 0x0100)).pc = 0x0100 from rfl, hw]
    rfl
  rw [step_of_no_interrupt rfl rfl]
  show (fetch (withCode [0x0000] (userStart.withPc 0x0100))).finish _ = _
  rw [hf]
  rfl

theorem witness_PrivilegeIsLeftOnlyByReti :
    (withCode [0xD400] (withWord 0xDFFC 0x0081 (withWord 0xDFFE 0x1234 (start.withSsp 0xDFFC)))).flag.p = true ∧
      gives (step (withCode [0xD400] (withWord 0xDFFC 0x0081 (withWord 0xDFFE 0x1234 (start.withSsp 0xDFFC))))) (fun t => !t.flag.p) =
        true := by decide

theorem witness_TraceGrowsAndHaltIsByHalt :
    gives (step (withCode [0xB810, 0x0008] start)) (fun t => t.ioTrace == [.output 0x08 2 0]) = true ∧
      gives (step (withCode [0xFF00] start)) (fun t => t.halted) = true := by decide

end Sys2Proof.Tests
end

section
/-! SUPPORT. The registers by number, FLAG bit by bit, and the state after reset (10_state.md): the rules of the state and the proofs of the
statements O7, O8, O9 and O54. -/

namespace Sys2Proof.Machine

/-! ## The register a number names -/

/-- Numbers 0 to 12 name the general registers in both modes (R20, R23). -/
theorem resolve_low (p : Bool) (r : RegNum) (h : r.toNat < 13) : resolve p r = .g ⟨r.toNat, h⟩ := dif_pos h

/-- Two numbers below 13 name the same register only when they are equal. -/
theorem resolve_low_inj {p : Bool} {r r' : RegNum} (hr : r.toNat < 13) (hr' : r'.toNat < 13) (h : resolve p r = resolve p r') :
    r = r' := by
  rw [resolve_low p r hr, resolve_low p r' hr'] at h
  injection h with h
  exact BitVec.eq_of_toNat_eq (Fin.mk.inj h)

theorem State.reg_low (s : State) (r : RegNum) (h : r.toNat < 13) : s.reg r = .g ⟨r.toNat, h⟩ := resolve_low _ r h

@[simp] theorem State.reg_sp (s : State) : s.reg spNum = if s.flag.p then .ssp else .usp := resolve_sp _
@[simp] theorem State.reg_usp (s : State) : s.reg 14#4 = .usp := resolve_usp _
@[simp] theorem State.reg_pc (s : State) : s.reg 15#4 = .pc := resolve_pc _

/-- In user mode no register number names SSP (R23, R342). -/
theorem State.reg_user_ne_ssp {s : State} (h : s.flag.p = false) (r : RegNum) : s.reg r ≠ .ssp := by
  rw [State.reg, h]
  exact resolve_user_ne_ssp r

/-! ## Reads and writes by number -/

theorem State.x_low (s : State) (r : RegNum) (h : r.toNat < 13) : s.x r = s.g[r.toNat] := by
  rw [State.x, State.reg_low s r h]
  rfl

theorem State.x_sp (s : State) : s.x spNum = if s.flag.p then s.ssp else s.usp := by
  cases hp : s.flag.p with
  | true => exact State.x_sp_privileged hp
  | false => exact State.x_sp_user hp

@[simp] theorem State.x_usp (s : State) : s.x 14#4 = s.usp := by rw [State.x, State.reg_usp, State.get]
@[simp] theorem State.x_pc (s : State) : s.x 15#4 = s.pc := by rw [State.x, State.reg_pc, State.get]

/-- A number that names the register written reads the value written. -/
theorem State.x_setX_of_reg_eq {s : State} {r r' : RegNum} (h : s.reg r' = s.reg r) (w : Word) : (s.setX r w).x r' = w := by
  rw [State.x, State.reg_setX, h]
  exact State.get_set_same s _ w

theorem State.setX_sp_privileged {s : State} (h : s.flag.p = true) (w : Word) : s.setX spNum w = s.withSsp w := by
  rw [State.setX, State.reg_sp, if_pos h, State.set]

theorem State.setX_sp_user {s : State} (h : s.flag.p = false) (w : Word) : s.setX spNum w = s.withUsp w := by
  rw [State.setX, State.reg_sp, if_neg (by simp [h]), State.set]

/-! ## FLAG bit by bit -/

/-- A bit of FLAG at its place is the only bit there. -/
theorem getLsbD_flagBit (b : Bool) {i : Nat} (hi : i < 16) (k : Nat) :
    (flagBit b (BitVec.twoPow 16 i)).getLsbD k = (b && decide (k = i)) := by
  cases b with
  | true => simp [flagBit, BitVec.getLsbD_twoPow, hi, eq_comm]
  | false => simp [flagBit]

/-- Every bit of FLAG as a 16-bit value, `00000000EP00VCSZ` (R28). -/
theorem Flag.getLsbD_toWord (f : Flag) (k : Nat) :
    f.toWord.getLsbD k = ((f.e && decide (k = 7)) || (f.p && decide (k = 6)) || (f.v && decide (k = 3)) ||
      (f.c && decide (k = 2)) || (f.s && decide (k = 1)) || (f.z && decide (k = 0))) := by
  have hw : f.toWord = flagBit f.e (BitVec.twoPow 16 7) ||| flagBit f.p (BitVec.twoPow 16 6) |||
      flagBit f.v (BitVec.twoPow 16 3) ||| flagBit f.c (BitVec.twoPow 16 2) ||| flagBit f.s (BitVec.twoPow 16 1) |||
      flagBit f.z (BitVec.twoPow 16 0) := rfl
  rw [hw]
  simp (disch := decide) only [BitVec.getLsbD_or, getLsbD_flagBit]

/-! ## The statements -/

/-- Settles O9, from one rule per register number and the read-after-write laws of the registers. -/
theorem registerReadAfterWrite : Obligations.RegisterReadAfterWrite := by
  intro s r r' w
  refine ⟨fun h => State.x_setX_of_reg_eq h w, State.x_setX_ne s r r' w, resolve_low_inj,
    fun hp => State.reg_user_ne_ssp hp r, onlyRegs_setX s r w, fun h => ⟨State.reg_low s r h, State.x_low s r h⟩,
    State.reg_sp s, State.x_sp s, State.reg_usp s, State.x_usp s, State.reg_pc s, State.x_pc s⟩

/-- Settles O7, by reading each bit off `Flag.getLsbD_toWord`. -/
theorem flagWordLayout : Obligations.FlagWordLayout := by
  intro f
  simp only [Flag.getLsbD_toWord]
  refine ⟨by simp, by simp, by simp, by simp, by simp, by simp, by simp, by simp, fun k hk => ?_⟩
  have hne : ∀ i < 8, k ≠ i := by omega
  simp [hne]

/-- Settles O8: in each mode a write of SP is the update of one stack pointer. -/
theorem stackPointerSelectedByMode : Obligations.StackPointerSelectedByMode := by
  intro s w
  refine ⟨fun hp => ⟨State.x_sp_privileged hp, ?_⟩, fun hp => ⟨State.x_sp_user hp, ?_⟩⟩
  · rw [← spNum, State.setX_sp_privileged hp]
    exact ⟨rfl, rfl⟩
  · rw [← spNum, State.setX_sp_user hp]
    exact ⟨rfl, rfl⟩

/-- No byte of memory holds a value after reset (log 3). -/
@[simp] theorem State.byteAt_reset (a : Nat) : State.reset.byteAt a = none := rfl

/-- Settles O54: the values that the reset state is defined with. -/
theorem resetStateValues : Obligations.ResetStateValues :=
  ⟨rfl, rfl, rfl, rfl, rfl, by decide, State.byteAt_reset⟩

end Sys2Proof.Machine
end

section
/-! SUPPORT. A first word read back from the encoding of an instruction (30_encoding.md). -/

namespace Sys2Proof

theorem First.complete_map {α β : Type} (g : α → β) (x : First α) (ws : List Word) :
    (x.map g).complete ws = (x.complete ws).map g := by
  cases x with
  | one a => cases ws <;> rfl
  | two f =>
    match ws with
    | [] => rfl
    | [_] => rfl
    | _ :: _ :: _ => rfl
  | _ => rfl

/-- A first word is completed by no word or by one. -/
theorem First.complete_eq_some {α : Type} {x : First α} {ws : List Word} {a : α} (h : x.complete ws = some a) :
    (x = .one a ∧ ws = []) ∨ ∃ f w2, x = .two f ∧ ws = [w2] ∧ f w2 = a := by
  unfold First.complete at h
  split at h
  · exact .inl ⟨by rw [Option.some.inj h], rfl⟩
  · next f w2 => exact .inr ⟨f, w2, rfl, rfl, Option.some.inj h⟩
  · exact nomatch h

/-! ## The row of the opcode map decides how the other fields are read (R113, R118) -/

theorem decodeView_ea (o : EaOp) (m : BitVec 3) (rd rx : RegNum) :
    decodeView (firstWord o.row m rd rx) = (decodeEa m rx).map (.ea o rd) := by
  simp [decodeView]

theorem decodeView_st {m : BitVec 3} (hm : m.toNat ≠ 4) (rd rx : RegNum) :
    decodeView (firstWord 2 m rd rx) = (decodeMemEa m rx).map (.st rd) := by
  have ho : EaOp.ofRow 2#5 = none := rfl
  simp [decodeView, ho]

theorem decodeView_jump (m : BitVec 3) (rd rx : RegNum) : decodeView (firstWord 20 m rd rx) = decodeJump m rd rx := by
  have ho : EaOp.ofRow 20#5 = none := rfl
  simp [decodeView, ho]

theorem decodeView_call (m : BitVec 3) (rd rx : RegNum) : decodeView (firstWord 21 m rd rx) = decodeCall m rd rx := by
  have ho : EaOp.ofRow 21#5 = none := rfl
  simp [decodeView, ho]

theorem decodeView_input (m : BitVec 3) (rd rx : RegNum) :
    decodeView (firstWord 22 m rd rx) = (decodePortEa m rx).map (.input rd) := by
  have ho : EaOp.ofRow 22#5 = none := rfl
  simp [decodeView, ho]

theorem decodeView_output (m : BitVec 3) (rd rx : RegNum) :
    decodeView (firstWord 23 m rd rx) = (decodePortEa m rx).map (.output rd) := by
  have ho : EaOp.ofRow 23#5 = none := rfl
  simp [decodeView, ho]

/-- The condition of a jump is read back from its code (R121). -/
theorem decodeJump_code (m : BitVec 3) (cc : Cond) (rx : RegNum) :
    decodeJump m cc.code rx = (decodeJumpEa m rx).map (.jump cc) := by
  unfold decodeJump
  rw [Cond.ofCode_code]
  cases decodeJumpEa m rx <;> rfl

theorem decodeCall_zero (m : BitVec 3) (rx : RegNum) : decodeCall m 0 rx = (decodeJumpEa m rx).map .call := by
  unfold decodeCall
  cases decodeJumpEa m rx <;> rfl

/-- ST has no operand form in column 4 of its row, which is LD Rd,FLAG (R118, R159). -/
theorem MemEa.mode_ne_four (e : MemEa) : e.fields.1.toNat ≠ 4 := by cases e <;> simp [MemEa.fields]

/-! ## The encoding of a view or an instruction, read back -/

/-- The first word of a view's encoding, completed with the words after it, reads as that view (R111 to R121). -/
theorem complete_decodeView_encode (v : View) :
    ∃ w1 ws, v.encode = w1 :: ws ∧ (decodeView w1).complete ws = some v := by
  cases v with
  | ea o rd e => exact ⟨_, _, rfl, by rw [decodeView_ea, First.complete_map, decodeEa_fields, Option.map_some]⟩
  | st rd e =>
    exact ⟨_, _, rfl, by rw [decodeView_st e.mode_ne_four, First.complete_map, decodeMemEa_fields, Option.map_some]⟩
  | jump cc e =>
    exact ⟨_, _, rfl, by rw [decodeView_jump, decodeJump_code, First.complete_map, decodeJumpEa_fields, Option.map_some]⟩
  | call e =>
    exact ⟨_, _, rfl, by rw [decodeView_call, decodeCall_zero, First.complete_map, decodeJumpEa_fields, Option.map_some]⟩
  | input rd e => exact ⟨_, _, rfl, by rw [decodeView_input, First.complete_map, decodePortEa_fields, Option.map_some]⟩
  | output rd e => exact ⟨_, _, rfl, by rw [decodeView_output, First.complete_map, decodePortEa_fields, Option.map_some]⟩
  | ldFlag rd => exact ⟨_, _, rfl, by revert rd; decide⟩
  | push rd => exact ⟨_, _, rfl, by revert rd; decide⟩
  | pop rd => exact ⟨_, _, rfl, by revert rd; decide⟩
  | no | ret | reti | ei | di | svc | halt => exact ⟨_, _, rfl, by decide⟩

/-- The first word of an instruction's encoding, completed with the words after it, reads as that instruction. -/
theorem complete_decodeFirst_encode (i : Instr) :
    ∃ w1 ws, encode i = w1 :: ws ∧ (decodeFirst w1).complete ws = some i := by
  obtain ⟨w1, ws, he, hc⟩ := complete_decodeView_encode i.view
  exact ⟨w1, ws, he, by rw [decodeFirst, First.complete_map, hc, Option.map_some, Instr.ofView_view]⟩

end Sys2Proof
end

section
/-! SUPPORT. The fetch of an instruction whose words stand at PC (10_state.md R26), and the proof of the statement O51. -/

namespace Sys2Proof.Machine

/-! ## A fetch of readable words -/

/-- A word that may be fetched at PC is fetched, and PC moves past it (R26, R70). -/
theorem fetchWord_of_readable {s : State} {w : Word} (h : readableWord s .fetch s.pc w) (k : Word → State → Fetched) :
    s.fetchWord k = k w (s.withPc (s.pc + 2#16)) := by
  simp only [State.fetchWord, readWord_of_readable (by decide) h]

/-- What may be read at an address does not depend on PC. -/
theorem readableWord_withPc {s : State} {kind : AccessKind} {p a w : Word} :
    readableWord (s.withPc p) kind a w ↔ readableWord s kind a w := Iff.rfl

/-- An instruction of one word is fetched, with PC past it (R26, R115). -/
theorem fetch_of_one {s : State} {w1 : Word} {i : Instr} (hr : readableWord s .fetch s.pc w1) (hd : decodeFirst w1 = .one i) :
    fetch s = .run i (s.withPc (s.pc + 2#16)) := by
  rw [fetch, fetchWord_of_readable hr]
  simp only [hd]

/-- An instruction of two words is fetched, with PC past both (R26, R115). -/
theorem fetch_of_two {s : State} {w1 w2 : Word} {f : Word → Instr} (hr1 : readableWord s .fetch s.pc w1)
    (hr2 : readableWord s .fetch (s.pc + 2#16) w2) (hd : decodeFirst w1 = .two f) :
    fetch s = .run (f w2) (s.withPc (s.pc + 4#16)) := by
  have hr2' : readableWord (s.withPc (s.pc + 2#16)) .fetch (s.withPc (s.pc + 2#16)).pc w2 := readableWord_withPc.2 hr2
  rw [fetch, fetchWord_of_readable hr1]
  simp only [hd]
  rw [fetchWord_of_readable hr2', State.withPc_twice, State.pc_withPc, BitVec.add_assoc]
  rfl

/-- Where the words of an instruction's encoding may be fetched at PC, that instruction is fetched, with PC past its words (R26). -/
theorem fetch_of_encode {s : State} {i : Instr}
    (h : ∀ (k : Nat) (w : Word), (encode i)[k]? = some w → readableWord s .fetch (s.pc + BitVec.ofNat 16 (2 * k)) w) :
    fetch s = .run i (s.withPc (s.pc + BitVec.ofNat 16 (2 * (encode i).length))) := by
  obtain ⟨w1, ws, he, hc⟩ := complete_decodeFirst_encode i
  rw [he] at h ⊢
  have hr1 : readableWord s .fetch s.pc w1 := by simpa using h 0 w1 rfl
  rcases First.complete_eq_some hc with ⟨hd, rfl⟩ | ⟨f, w2, hd, rfl, rfl⟩
  · exact fetch_of_one hr1 hd
  · exact fetch_of_two hr1 (h 1 w2 rfl) hd

/-! ## The statement -/

/-- Settles O51: with no interrupt to take the step is what the fetch gives, and the fetch gives the instruction encoded at PC. -/
theorem stepRunsTheDecodedInstruction : Obligations.StepRunsTheDecodedInstruction := by
  intro s i hh hn hr
  have hf : fetch s.receive = .run i (s.receive.withPc (s.receive.pc + BitVec.ofNat 16 (2 * (encode i).length))) :=
    fetch_of_encode (by simpa only [State.pc_receive] using hr)
  rw [step_of_no_interrupt hh (acceptInterrupt_none hn), hf, State.pc_receive, Fetched.finish]

end Sys2Proof.Machine
end

section
/-! SUPPORT. A first word that decodes is the first word of the encoding (30_encoding.md R111 to R121): the converse of
`complete_decodeView_encode`. -/

namespace Sys2Proof

/-! ## What completes a first word -/

@[simp] theorem First.complete_one_iff {α : Type} {a b : α} {ws : List Word} :
    (First.one a).complete ws = some b ↔ ws = [] ∧ a = b := by
  cases ws <;> simp [First.complete]

@[simp] theorem First.complete_two_iff {α : Type} {f : Word → α} {b : α} {ws : List Word} :
    (First.two f).complete ws = some b ↔ ∃ w2, ws = [w2] ∧ f w2 = b := by
  match ws with
  | [] => simp [First.complete]
  | [_] => simp [First.complete]
  | _ :: _ :: _ => simp [First.complete]

@[simp] theorem First.complete_undefined {α : Type} (ws : List Word) : (First.undefined : First α).complete ws = none := by
  simp [First.complete]

@[simp] theorem First.complete_reserved {α : Type} (why : Reserved) (ws : List Word) :
    (First.reserved why : First α).complete ws = none := by simp [First.complete]

@[simp] theorem First.complete_ifZero_iff {α : Type} {field : BitVec 4} {x : First α} {b : α} {ws : List Word} :
    (First.ifZero field x).complete ws = some b ↔ field = 0#4 ∧ x.complete ws = some b := by
  by_cases h : field = 0#4 <;> simp [First.ifZero, h]

theorem First.complete_map_iff {α β : Type} {g : α → β} {x : First α} {b : β} {ws : List Word} :
    (x.map g).complete ws = some b ↔ ∃ a, x.complete ws = some a ∧ g a = b := by
  rw [First.complete_map, Option.map_eq_some_iff]

/-! ## The operand form read from the fields has those fields, mode by mode (R114) -/

theorem fields_of_decodeEa {m : BitVec 3} {rx : RegNum} {ws : List Word} {e : Ea}
    (h : (decodeEa m rx).complete ws = some e) : e.fields = (m, rx, ws) := by
  obtain ⟨m, hm⟩ := m
  interval_cases m <;>
    simp only [decodeEa, BitVec.toNat_ofFin, First.complete_ifZero_iff, First.complete_two_iff, First.complete_one_iff] at h
  · obtain ⟨rfl, w2, rfl, rfl⟩ := h; rfl
  · obtain ⟨w2, rfl, rfl⟩ := h; rfl
  · obtain ⟨rfl, w2, rfl, rfl⟩ := h; rfl
  all_goals (obtain ⟨rfl, rfl⟩ := h; rfl)

theorem fields_of_decodeMemEa {m : BitVec 3} {rx : RegNum} {ws : List Word} {e : MemEa}
    (h : (decodeMemEa m rx).complete ws = some e) : e.fields = (m, rx, ws) := by
  obtain ⟨m, hm⟩ := m
  interval_cases m <;>
    simp only [decodeMemEa, BitVec.toNat_ofFin, First.complete_ifZero_iff, First.complete_two_iff, First.complete_one_iff,
      First.complete_undefined, reduceCtorEq] at h
  · obtain ⟨rfl, w2, rfl, rfl⟩ := h; rfl
  · obtain ⟨w2, rfl, rfl⟩ := h; rfl
  all_goals (obtain ⟨rfl, rfl⟩ := h; rfl)

theorem fields_of_decodeJumpEa {m : BitVec 3} {rx : RegNum} {ws : List Word} {e : JumpEa}
    (h : (decodeJumpEa m rx).complete ws = some e) : e.fields = (m, rx, ws) := by
  obtain ⟨m, hm⟩ := m
  interval_cases m <;>
    simp only [decodeJumpEa, BitVec.toNat_ofFin, First.complete_ifZero_iff, First.complete_two_iff, First.complete_one_iff,
      First.complete_undefined, reduceCtorEq] at h
  · obtain ⟨rfl, w2, rfl, rfl⟩ := h; rfl
  · obtain ⟨w2, rfl, rfl⟩ := h; rfl
  · obtain ⟨rfl, rfl⟩ := h; rfl

theorem fields_of_decodePortEa {m : BitVec 3} {rx : RegNum} {ws : List Word} {e : PortEa}
    (h : (decodePortEa m rx).complete ws = some e) : e.fields = (m, rx, ws) := by
  obtain ⟨m, hm⟩ := m
  interval_cases m <;>
    simp only [decodePortEa, BitVec.toNat_ofFin, First.complete_ifZero_iff, First.complete_two_iff, First.complete_one_iff,
      First.complete_undefined, reduceCtorEq] at h
  · obtain ⟨rfl, w2, rfl, rfl⟩ := h; rfl
  all_goals (obtain ⟨rfl, rfl⟩ := h; rfl)

/-- A jump read from the row A0h has its condition in the Rd field (R121, R242). -/
theorem decodeJump_complete {m : BitVec 3} {rd rx : RegNum} {ws : List Word} {v : View}
    (h : (decodeJump m rd rx).complete ws = some v) :
    ∃ cc e, v = .jump cc e ∧ cc.code = rd ∧ e.fields = (m, rx, ws) := by
  unfold decodeJump at h
  split at h
  · simp at h
  · simp at h
  · next cc hc _ =>
    obtain ⟨e, he, rfl⟩ := First.complete_map_iff.1 h
    exact ⟨cc, e, rfl, Cond.code_of_ofCode hc, fields_of_decodeJumpEa he⟩

/-- A CALL read from the row A8h has a zero Rd field (R120, R258). -/
theorem decodeCall_complete {m : BitVec 3} {rd rx : RegNum} {ws : List Word} {v : View}
    (h : (decodeCall m rd rx).complete ws = some v) : ∃ e, v = .call e ∧ rd = 0#4 ∧ e.fields = (m, rx, ws) := by
  unfold decodeCall at h
  split at h
  · simp at h
  · obtain ⟨hrd, h⟩ := First.complete_ifZero_iff.1 h
    obtain ⟨e, he, rfl⟩ := First.complete_map_iff.1 h
    exact ⟨e, rfl, hrd, fields_of_decodeJumpEa he⟩

/-! ## The first word itself -/

theorem eq_ofNat_of_toNat {n k : Nat} {x : BitVec n} (h : x.toNat = k) : x = BitVec.ofNat n k := by
  rw [← h, BitVec.ofNat_toNat, BitVec.setWidth_eq]

/-- Four fields that decode are the fields of the encoding. -/
theorem encode_of_decodeView_firstWord {row : BitVec 5} {m : BitVec 3} {rd rx : RegNum} {ws : List Word} {v : View}
    (h : (decodeView (firstWord row m rd rx)).complete ws = some v) : v.encode = firstWord row m rd rx :: ws := by
  simp only [decodeView, rowField_firstWord, modeField_firstWord, rdField_firstWord, rxField_firstWord] at h
  split at h
  · next o ho =>
    obtain ⟨e, he, rfl⟩ := First.complete_map_iff.1 h
    rw [View.encode, encodeWith, fields_of_decodeEa he, EaOp.row_of_ofRow ho]
  · split at h
    case h_1 hrow hm | h_10 hrow hm | h_11 hrow hm | h_12 hrow hm | h_13 hrow hm | h_14 hrow hm | h_15 hrow hm =>
      obtain rfl := eq_ofNat_of_toNat hrow
      obtain rfl := eq_ofNat_of_toNat hm
      obtain ⟨rfl, rfl, rfl, rfl⟩ := by simpa only [First.complete_ifZero_iff, First.complete_one_iff] using h
      rfl
    case h_2 hrow hm | h_8 hrow hm | h_9 hrow hm =>
      obtain rfl := eq_ofNat_of_toNat hrow
      obtain rfl := eq_ofNat_of_toNat hm
      obtain ⟨rfl, rfl, rfl⟩ := by simpa only [First.complete_ifZero_iff, First.complete_one_iff] using h
      rfl
    case h_3 hrow _ =>
      obtain rfl := eq_ofNat_of_toNat hrow
      obtain ⟨e, he, rfl⟩ := First.complete_map_iff.1 h
      rw [View.encode, encodeWith, fields_of_decodeMemEa he]
      rfl
    case h_4 hrow =>
      obtain rfl := eq_ofNat_of_toNat hrow
      obtain ⟨cc, e, rfl, rfl, he⟩ := decodeJump_complete h
      rw [View.encode, encodeWith, he]
      rfl
    case h_5 hrow =>
      obtain rfl := eq_ofNat_of_toNat hrow
      obtain ⟨e, rfl, rfl, he⟩ := decodeCall_complete h
      rw [View.encode, encodeWith, he]
      rfl
    case h_6 hrow | h_7 hrow =>
      obtain rfl := eq_ofNat_of_toNat hrow
      obtain ⟨e, he, rfl⟩ := First.complete_map_iff.1 h
      rw [View.encode, encodeWith, fields_of_decodePortEa he]
      rfl
    case h_16 => simp at h

/-- A first word that decodes, with the words that complete it, is the encoding of what it decodes to (R111 to R121). -/
theorem encode_of_complete_decodeView {w1 : Word} {ws : List Word} {v : View}
    (h : (decodeView w1).complete ws = some v) : v.encode = w1 :: ws := by
  rw [← firstWord_fields w1] at h
  rw [encode_of_decodeView_firstWord h, firstWord_fields]

/-- The words that decode to an instruction are its encoding. -/
theorem encode_of_complete_decodeFirst {w1 : Word} {ws : List Word} {i : Instr}
    (h : (decodeFirst w1).complete ws = some i) : encode i = w1 :: ws := by
  obtain ⟨v, hv, rfl⟩ := First.complete_map_iff.1 h
  rw [encode, Instr.view_ofView, encode_of_complete_decodeView hv]

/-- The OP byte of an encoding with an operand: the row, then the mode (R113). -/
theorem opByte_of_encodeWith {row : BitVec 5} {rd : RegNum} {fields : BitVec 3 × RegNum × List Word} {w1 : Word} {ws : List Word}
    (h : encodeWith row rd fields = w1 :: ws) : (w1.extractLsb' 8 8).toNat = row.toNat * 8 + fields.1.toNat := by
  obtain ⟨rfl, -⟩ := List.cons.inj h
  rw [toNat_field, toNat_firstWord]
  have := row.isLt; have := fields.1.isLt; have := rd.isLt; have := fields.2.1.isLt
  omega

/-- The OP byte of IN is B0h, B6h or B7h (R118). -/
theorem opByte_of_input {rd : RegNum} {e : PortEa} {w1 : Word} {ws : List Word} (h : (View.input rd e).encode = w1 :: ws) :
    (w1.extractLsb' 8 8).toNat ∈ [0xB0, 0xB6, 0xB7] := by
  rw [opByte_of_encodeWith h]
  cases e <;> simp [PortEa.fields]

/-- The OP byte of OUT is B8h, BEh or BFh (R118). -/
theorem opByte_of_output {rd : RegNum} {e : PortEa} {w1 : Word} {ws : List Word} (h : (View.output rd e).encode = w1 :: ws) :
    (w1.extractLsb' 8 8).toNat ∈ [0xB8, 0xBE, 0xBF] := by
  rw [opByte_of_encodeWith h]
  cases e <;> simp [PortEa.fields]

end Sys2Proof
end

section
/-! SUPPORT. What a step can do at most to the memory, to the I/O trace and to `halted`, said once for each shared operation, for `exec`
and for the step (20_memory.md R61, R67, R69, R75, R87), and the proofs of the statements O55, O56, O57 and O60. -/

namespace Sys2Proof.Machine

/-! ## Writes of allowed bytes -/

/-- One memory is left by writes of bytes in RAM and in the vector table from another (R67, R69, R75). -/
inductive Memory.Writes (m : Memory) : Memory → Prop where
  | refl : Memory.Writes m m
  | write {n : Memory} (a : Word) (b : Byte) (hn : Memory.Writes m n) (ha : a.toNat < 0xE000 ∨ 0xFFE0 ≤ a.toNat) :
      Memory.Writes m (n.write a.toNat b)

theorem Memory.Writes.wf {m n : Memory} (h : Memory.Writes m n) (hm : m.wf) : n.wf := by
  induction h with
  | refl => exact hm
  | write a b _ _ ih => exact Memory.wf_write ih a b

theorem Memory.Writes.read_protected {m n : Memory} (h : Memory.Writes m n) {a : Nat} (h1 : 0xE000 ≤ a) (h2 : a < 0xFFE0) :
    n.read a = m.read a := by
  induction h with
  | refl => rfl
  | write c b _ hc ih => rw [Memory.read_write_ne _ _ _ _ (by omega), ih]

/-- A word write that passes the checks writes two allowed bytes: an even address and the next lie in the same region. -/
theorem Memory.Writes.writeWord {s : State} {m n : Memory} {a : Word} (h : Memory.Writes m n)
    (hc : s.checkWord .write a = .ok ()) (w : Word) : Memory.Writes m (n.writeWord a w) := by
  obtain ⟨he, -, h1, h2⟩ := State.checkWord_ok.1 hc
  have ha := writable_of_regionOf h1 (h2 rfl)
  have heven : a.toNat % 2 = 0 := by
    rw [lsb_eq_decide, decide_eq_false_iff_not] at he
    omega
  refine .write _ _ (.write _ _ h ha) ?_
  rw [BitVec.toNat_add, show (1#16).toNat = 1 from rfl]
  omega

theorem Memory.Writes.writeByte {s : State} {m n : Memory} {a : Word} (h : Memory.Writes m n)
    (hc : s.checkByte .write a = .ok ()) (b : Byte) : Memory.Writes m (n.write a.toNat b) := by
  obtain ⟨-, h1, h2⟩ := State.checkByte_ok.1 hc
  exact .write _ _ h (writable_of_regionOf h1 (h2 rfl))

/-! ## What the shared operations leave of the memory, the trace and `halted` -/

/-- Only bytes of RAM and of the vector table were written; the I/O trace and `halted` are as before. -/
structure WritesOnly (s t : State) : Prop where
  mem : Memory.Writes s.mem t.mem
  ioTrace : t.ioTrace = s.ioTrace
  halted : t.halted = s.halted

theorem WritesOnly.of_mem_eq {s t : State} (hm : t.mem = s.mem) (ht : t.ioTrace = s.ioTrace) (hh : t.halted = s.halted) :
    WritesOnly s t :=
  ⟨hm ▸ .refl, ht, hh⟩

@[simp] theorem State.mem_setX (s : State) (r : RegNum) (w : Word) : (s.setX r w).mem = s.mem := by simp [State.setX]
@[simp] theorem State.ioTrace_setX (s : State) (r : RegNum) (w : Word) : (s.setX r w).ioTrace = s.ioTrace := by
  simp [State.setX]
@[simp] theorem State.halted_setX (s : State) (r : RegNum) (w : Word) : (s.setX r w).halted = s.halted := by
  simp [State.setX]

theorem WritesOnly.withPc {s t : State} (h : WritesOnly s t) (w : Word) : WritesOnly s (t.withPc w) :=
  ⟨h.mem, h.ioTrace, h.halted⟩

theorem WritesOnly.setX {s t : State} (h : WritesOnly s t) (r : RegNum) (w : Word) : WritesOnly s (t.setX r w) :=
  ⟨by simpa using h.mem, by simpa using h.ioTrace, by simpa using h.halted⟩

theorem push_writesOnly {s t : State} {w : Word} (h : s.push w = .ok t) : WritesOnly s t := by
  obtain ⟨hc, rfl⟩ := State.push_ok.1 h
  refine ⟨?_, by simp, by simp⟩
  rw [State.mem_setX, State.mem_withMem]
  exact .writeWord .refl hc w

theorem pop_writesOnly {s t : State} {w : Word} (h : s.pop = .ok (w, t)) : WritesOnly s t := by
  obtain ⟨-, -, rfl⟩ := State.pop_ok.1 h
  exact .of_mem_eq (by simp) (by simp) (by simp)

@[simp] theorem mem_trapped (c : Cause) (retpc handler : Word) (s : State) : (trapped c retpc handler s).mem =
    (s.mem.writeWord (s.ssp - 2#16) retpc).writeWord (s.ssp - 2#16 - 2#16) s.flag.toWord := by cases c <;> rfl
@[simp] theorem ioTrace_trapped (c : Cause) (retpc handler : Word) (s : State) :
    (trapped c retpc handler s).ioTrace = s.ioTrace := by cases c <;> rfl
@[simp] theorem halted_trapped (c : Cause) (retpc handler : Word) (s : State) :
    (trapped c retpc handler s).halted = s.halted := by cases c <;> rfl

theorem trapEntry_writesOnly {c : Cause} {retpc : Word} {s t : State} (h : trapEntry c retpc s = .next t) : WritesOnly s t := by
  obtain ⟨hc1, hc2, handler, -, rfl⟩ := trapEntry_next h
  refine ⟨?_, by simp, by simp⟩
  rw [mem_trapped]
  exact .writeWord (.writeWord .refl hc1 _) hc2 _

theorem raise_writesOnly {ex : Exc} {s t : State} (h : raise ex s = .next t) : WritesOnly s t := trapEntry_writesOnly h

theorem trapReturn_writesOnly {s t : State} (hp : s.flag.p = true) (h : s.trapReturn = .ok t) : WritesOnly s t := by
  obtain ⟨f, w, -, -, -, -, rfl⟩ := State.trapReturn_ok hp h
  exact .of_mem_eq rfl rfl rfl

/-- An I/O read appends its own event (R87, R270). -/
theorem ioRead_appends {s t : State} {port : Byte} {width : Nat} {v : Word} (h : s.ioRead port width = .ok (v, t)) :
    t.mem = s.mem ∧ (∃ ev, t.ioTrace = s.ioTrace ++ [ev]) ∧ t.halted = s.halted := by
  obtain ⟨-, -, rfl⟩ := State.ioRead_ok h
  rw [State.answer_eq]
  exact ⟨rfl, ⟨_, rfl⟩, rfl⟩

/-- An I/O write appends its own event (R87, R271). -/
theorem ioWrite_appends {s t : State} {port : Byte} {width : Nat} {w : Word} (h : s.ioWrite port width w = .ok t) :
    t.mem = s.mem ∧ (∃ ev, t.ioTrace = s.ioTrace ++ [ev]) ∧ t.halted = s.halted := by
  obtain ⟨-, rfl⟩ := State.ioWrite_ok h
  split
  · rw [State.limitsWord_eq]
    exact ⟨rfl, ⟨_, rfl⟩, rfl⟩
  · rw [State.limitsByte_eq]
    exact ⟨rfl, ⟨_, rfl⟩, rfl⟩

/-! ## The seventeen operations with a value operand -/

/-- The most that an operation with a value operand does of its own: Rd, Rd+1, V, C, S, Z and the counter of the free values written. An
operation that writes less of them writes the rest as they were. -/
def PairEffect (rd : RegNum) (s t : State) : Prop := ∃ hi lo f n, t = (s.setPair rd hi lo f).withFree n

theorem pairEffect_setPair (rd : RegNum) (s : State) (hi lo : Word) (f : Vcsz) : PairEffect rd s (s.setPair rd hi lo f) :=
  ⟨hi, lo, f, _, (State.withFree_self _).symm⟩

@[simp] theorem State.setX_x (s : State) (r : RegNum) : s.setX r (s.x r) = s := State.set_get s _

/-- A write of Rd and the result flags is a write of the pair in which Rd+1 keeps its content. -/
theorem setX_withVcsz_eq_setPair (s : State) (rd : RegNum) (w : Word) (f : Vcsz) :
    (s.setX rd w).withVcsz f = s.setPair rd ((s.setX rd w).x (highOf rd)) w f := by
  rw [State.setPair, State.setX_x]

theorem pairEffect_setX_withVcsz (rd : RegNum) (s : State) (w : Word) (f : Vcsz) (n : Nat) :
    PairEffect rd s (((s.setX rd w).withVcsz f).withFree n) :=
  ⟨_, w, f, n, by rw [setX_withVcsz_eq_setPair]⟩

theorem pairEffect_of_setX_withVcsz {rd : RegNum} {s t : State} {w : Word} {f : Vcsz} (h : t = (s.setX rd w).withVcsz f) :
    PairEffect rd s t := by
  rw [h, setX_withVcsz_eq_setPair]
  exact pairEffect_setPair rd s _ _ _

theorem pairEffect_setX (rd : RegNum) (s : State) (w : Word) : PairEffect rd s (s.setX rd w) :=
  pairEffect_of_setX_withVcsz (f := ⟨(s.setX rd w).flag.v, (s.setX rd w).flag.c, (s.setX rd w).flag.s, (s.setX rd w).flag.z⟩) rfl

/-- What ADD, SUB, AND, OR, XOR and ADDS can do, when they answer a next state (R181 to R187). -/
theorem doAlu_pairEffect {result : Word → Word → Word} {flags : Word → Word → Vcsz} {rd : RegNum} {e : Ea} {s t : State}
    (h : doAlu result flags rd e s = .next t) : PairEffect rd s t ∨ ∃ ex, raise ex s = .next t := by
  rcases doAlu_next h with ⟨b, -, h⟩ | ⟨ex, -, h⟩
  · exact .inl (pairEffect_of_setX_withVcsz h)
  · exact .inr ⟨ex, h⟩

/-- What a shift can do, when it answers a next state (R220). -/
theorem doShift_pairEffect {result : Word → Nat → Word} {out : Word → Nat → Bool} {rd : RegNum} {e : Ea} {s t : State}
    (h : doShift result out rd e s = .next t) : PairEffect rd s t ∨ ∃ ex, raise ex s = .next t := by
  rcases doShift_next h with ⟨r, f, n, rfl⟩ | ⟨ex, -, h⟩
  · exact .inl (pairEffect_setX_withVcsz rd s r f n)
  · exact .inr ⟨ex, h⟩

/-- What DIV and MOD can do with a result `q`, when they answer a next state (R205, R206). -/
theorem divide_pairEffect {q : Word → Word} {rd : RegNum} {x : Access Word} {s t : State}
    (h : x.run s (fun b => if b = 0#16 then raise .zeroDivide s
      else .next ((s.setX rd (q b)).withVcsz (flagsMulDiv (q b)))) = .next t) :
    PairEffect rd s t ∨ ∃ ex, raise ex s = .next t := by
  rcases Access.run_next h with ⟨b, -, h⟩ | ⟨ex, -, h⟩
  · split at h
    · exact .inr ⟨_, h⟩
    · exact .inl (pairEffect_of_setX_withVcsz (Host.Outcome.next.inj h).symm)
  · exact .inr ⟨ex, h⟩

/-- What an operation with a value operand can do, when it answers a next state. -/
theorem doEa_next {o : EaOp} {rd : RegNum} {e : Ea} {s t : State} (h : doEa o rd e s = .next t) :
    PairEffect rd s t ∨ ∃ ex, raise ex s = .next t := by
  cases o with
  | ld =>
    rcases doLd_next h with ⟨b, -, rfl⟩ | h
    · exact .inl (pairEffect_setX rd s b)
    · exact .inr h
  | add | sub => exact doAlu_pairEffect h
  | and | or | xor | adds =>
    simp only [doEa, doAnd, doOr, doXor, doAdds] at h
    exact doAlu_pairEffect h
  | cmp =>
    rcases Access.run_next h with ⟨b, -, h⟩ | ⟨ex, -, h⟩
    · refine .inl (pairEffect_of_setX_withVcsz (w := s.x rd) (f := flagsSub (s.x rd) b) ?_)
      rw [State.setX_x]
      exact (Host.Outcome.next.inj h).symm
    · exact .inr ⟨ex, h⟩
  | mul =>
    rcases Access.run_next h with ⟨b, -, h⟩ | ⟨ex, -, h⟩
    · exact .inl (pairEffect_of_setX_withVcsz (Host.Outcome.next.inj h).symm)
    · exact .inr ⟨ex, h⟩
  | div | mod => exact divide_pairEffect h
  | mull =>
    rcases doMull_next h with ⟨hi, lo, f, rfl⟩ | h
    · exact .inl (pairEffect_setPair rd s hi lo f)
    · exact .inr h
  | divl => exact doDivl_next h
  | shla | shll | shra | shrl => exact doShift_pairEffect h

theorem PairEffect.writesOnly {rd : RegNum} {s t : State} (h : PairEffect rd s t) : WritesOnly s t := by
  obtain ⟨hi, lo, f, n, rfl⟩ := h
  exact .of_mem_eq (by simp [State.setPair]) (by simp [State.setPair]) (by simp [State.setPair])

/-! ## `exec` -/

/-- The most that an instruction does to the memory, the I/O trace and `halted`: writes of allowed bytes; or, for IN and OUT in privileged
mode, one event; or, for HALT, `halted` set. -/
inductive ExecEffect (v : View) (s t : State) : Prop where
  | quiet (h : WritesOnly s t)
  | io {rd : RegNum} {e : PortEa} (hv : v = .input rd e ∨ v = .output rd e) (hp : s.flag.p = true) (hm : t.mem = s.mem)
      (ht : ∃ ev, t.ioTrace = s.ioTrace ++ [ev]) (hh : t.halted = s.halted)
  | halt (hv : v = .halt) (ht : t = s.withHalted true)

/-- An own effect that only writes allowed bytes, or an exception taken. -/
theorem ExecEffect.of_or_raise {v : View} {s t : State} {P : Prop} (h : P ∨ ∃ ex, raise ex s = .next t)
    (hP : P → WritesOnly s t) : ExecEffect v s t := by
  rcases h with h | ⟨ex, h⟩
  · exact .quiet (hP h)
  · exact .quiet (raise_writesOnly h)

theorem doSt_writesOnly {rd : RegNum} {e : MemEa} {s t : State} (h : doSt rd e s = .next t) : WritesOnly s t := by
  rcases doSt_next h with ⟨-, hc, rfl⟩ | ⟨-, hc, rfl⟩ | ⟨ex, h⟩
  · exact ⟨.writeWord .refl hc _, rfl, rfl⟩
  · exact ⟨.writeByte .refl hc _, rfl, rfl⟩
  · exact raise_writesOnly h

theorem doJump_writesOnly {cc : Cond} {e : JumpEa} {s t : State} (h : doJump cc e s = .next t) : WritesOnly s t := by
  obtain rfl := Host.Outcome.next.inj h
  split <;> exact .of_mem_eq rfl rfl rfl

theorem execEffect_input {rd : RegNum} {e : PortEa} {s t : State} (h : doIn rd e s = .next t) :
    ExecEffect (.input rd e) s t := by
  rcases doIn_next h with ⟨hp, v, s', hr, rfl⟩ | ⟨ex, h⟩
  · obtain ⟨hm, ht, hh⟩ := ioRead_appends hr
    exact .io (.inl rfl) hp (by simpa using hm) (by simpa using ht) (by simpa using hh)
  · exact .quiet (raise_writesOnly h)

theorem execEffect_output {rd : RegNum} {e : PortEa} {s t : State} (h : doOut rd e s = .next t) :
    ExecEffect (.output rd e) s t := by
  rcases doOut_next h with ⟨hp, hw⟩ | ⟨ex, h⟩
  · obtain ⟨hm, ht, hh⟩ := ioWrite_appends hw
    exact .io (.inr rfl) hp hm ht hh
  · exact .quiet (raise_writesOnly h)

/-- EI and DI, when they answer a next state. -/
theorem gated_withE_writesOnly {o : PrivOp} {b : Bool} {s t : State} (h : gated o s (.next (s.withE b)) = .next t) :
    WritesOnly s t := by
  rcases gated_next h with ⟨-, h⟩ | ⟨-, h⟩
  · obtain rfl := Host.Outcome.next.inj h
    exact .of_mem_eq rfl rfl rfl
  · exact raise_writesOnly h

theorem execEffect_halt {s t : State} (h : execHalt s = .next t) : ExecEffect .halt s t := by
  rcases gated_next h with ⟨-, h⟩ | ⟨-, h⟩
  · exact .halt rfl (Host.Outcome.next.inj h).symm
  · exact .quiet (raise_writesOnly h)

/-- What the instruction of a view can do, operation by operation. -/
theorem exec_ofView_effect {v : View} {s t : State} (h : exec (.ofView v) s = .next t) : ExecEffect v s t := by
  cases v with
  | no =>
    obtain rfl := Host.Outcome.next.inj h
    exact .quiet (.of_mem_eq rfl rfl rfl)
  | ldFlag rd =>
    obtain rfl := Host.Outcome.next.inj h
    exact .quiet (.of_mem_eq (by simp) (by simp) (by simp))
  | ea o rd e => exact .of_or_raise (doEa_next ((exec_ofEa o rd e s).symm.trans h)) PairEffect.writesOnly
  | st rd e => exact .quiet (doSt_writesOnly ((exec_ofSt rd e s).symm.trans h))
  | jump cc e => exact .quiet (doJump_writesOnly ((exec_ofJump cc e s).symm.trans h))
  | call e =>
    refine .of_or_raise (doCall_next ((exec_ofCall e s).symm.trans h)) ?_
    rintro ⟨s', hp, rfl⟩
    exact (push_writesOnly hp).withPc _
  | input rd e => exact execEffect_input ((exec_ofIn rd e s).symm.trans h)
  | output rd e => exact execEffect_output ((exec_ofOut rd e s).symm.trans h)
  | push rd =>
    obtain ⟨-, h⟩ := doPush_next h
    exact .of_or_raise h push_writesOnly
  | pop rd =>
    obtain ⟨-, h⟩ := doPop_next h
    refine .of_or_raise h ?_
    rintro ⟨w, s', hp, rfl⟩
    exact (pop_writesOnly hp).setX _ _
  | ret =>
    refine .of_or_raise (doRet_next h) ?_
    rintro ⟨w, s', hp, rfl⟩
    exact (pop_writesOnly hp).withPc _
  | reti => exact .of_or_raise (doReti_next h) fun ⟨hp, hr⟩ => trapReturn_writesOnly hp hr
  | ei | di => exact .quiet (gated_withE_writesOnly h)
  | svc => exact .quiet (raise_writesOnly h)
  | halt => exact execEffect_halt h

theorem exec_effect {i : Instr} {s t : State} (h : exec i s = .next t) : ExecEffect i.view s t :=
  exec_ofView_effect (by rwa [Instr.ofView_view])

/-! ## The step -/

/-- A word fetched is the word at PC (R26, R70). -/
theorem fetchWord_run {s s' : State} {i : Instr} {k : Word → State → Fetched} (h : s.fetchWord k = .run i s') :
    ∃ w, holdsWord s s.pc w ∧ k w (s.withPc (s.pc + 2#16)) = .run i s' := by
  unfold State.fetchWord at h
  split at h
  · next w hw => exact ⟨w, holdsWord_iff.2 (State.readWord_ok.1 hw).2, h⟩
  all_goals exact nomatch h

/-- An instruction that a fetch gives stands at PC: its first word is there, and only PC moves (R26, R115). -/
theorem fetch_run {s s' : State} {i : Instr} (h : fetch s = .run i s') :
    ∃ w1 ws pc', holdsWord s s.pc w1 ∧ encode i = w1 :: ws ∧ s' = s.withPc pc' := by
  obtain ⟨w1, hw1, h⟩ := fetchWord_run h
  split at h
  · exact nomatch h
  · exact nomatch h
  · next j hd =>
    cases h
    exact ⟨w1, [], _, hw1, encode_of_complete_decodeFirst (by simp [hd]), rfl⟩
  · next f hd =>
    obtain ⟨w2, -, h⟩ := fetchWord_run h
    cases h
    exact ⟨w1, [w2], _, hw1, encode_of_complete_decodeFirst (by simp [hd]), rfl⟩

/-- All that a step can be, when it answers a next state: a CPU that is not halted takes a trap at the boundary or for its fetch, or runs the
instruction whose first word is at PC (R26). -/
theorem step_next {s t : State} (h : step s = .next t) :
    s.halted = false ∧
      ((∃ c retpc n, trapEntry c retpc (s.receive.withFree n) = .next t) ∨
        ∃ i w1 ws pc', holdsWord s s.pc w1 ∧ encode i = w1 :: ws ∧ exec i (s.receive.withPc pc') = .next t) := by
  unfold step cycle at h
  split at h
  · exact nomatch h
  · next hh =>
    refine ⟨by simpa using hh, ?_⟩
    unfold boundary at h
    split at h
    · next n s' ha =>
      obtain ⟨-, -, hs'⟩ := State.acceptInterrupt_some ha
      exact .inl ⟨_, _, s'.free, by rwa [hs'] at h⟩
    · unfold Fetched.finish at h
      split at h
      · next i s' hf =>
        obtain ⟨w1, ws, pc', hw, he, rfl⟩ := fetch_run hf
        rw [State.pc_receive, holdsWord_iff, State.mem_receive, ← holdsWord_iff] at hw
        exact .inr ⟨i, w1, ws, pc', hw, he, h⟩
      · exact .inl ⟨_, _, s.receive.free, by rwa [State.withFree_self]⟩
      · exact nomatch h
      · exact nomatch h

/-- The most that a step does to the memory, the I/O trace and `halted`, with the word at PC where it does more than write allowed bytes. -/
theorem step_effect {s t : State} (h : step s = .next t) :
    WritesOnly s t ∨ ∃ i w1 ws pc', holdsWord s s.pc w1 ∧ encode i = w1 :: ws ∧
      ExecEffect i.view (s.receive.withPc pc') t := by
  obtain ⟨-, ⟨c, retpc, n, h⟩ | ⟨i, w1, ws, pc', hw, he, h⟩⟩ := step_next h
  · obtain ⟨hm, ht, hh⟩ := trapEntry_writesOnly h
    exact .inl ⟨by simpa using hm, by simpa using ht, by simpa using hh⟩
  · exact .inr ⟨i, w1, ws, pc', hw, he, exec_effect h⟩

theorem ExecEffect.mem_writes {v : View} {s t : State} (h : ExecEffect v s t) : Memory.Writes s.mem t.mem := by
  cases h with
  | quiet h => exact h.mem
  | io _ _ hm => exact hm ▸ .refl
  | halt _ ht => exact ht ▸ .refl

/-- A step writes bytes of RAM and of the vector table only. -/
theorem step_mem_writes {s t : State} (h : step s = .next t) : Memory.Writes s.mem t.mem := by
  rcases step_effect h with h | ⟨i, w1, ws, pc', -, -, h⟩
  · exact h.mem
  · simpa using h.mem_writes

/-! ## The statements -/

/-- Settles O56: a step only writes bytes, and a byte write keeps the canonical form. -/
theorem everyStepKeepsTheInvariant : Obligations.EveryStepKeepsTheInvariant :=
  fun _ _ hs h => (step_mem_writes h).wf hs

/-- Settles O57: every byte that a step writes lies in RAM or in the vector table. -/
theorem noStepWritesRomOrReserved : Obligations.NoStepWritesRomOrReserved :=
  fun _ _ h _ h1 h2 => (step_mem_writes h).read_protected h1 h2

/-- Settles O60, by the three kinds of effect that an instruction can have. -/
theorem traceGrowsAndHaltIsByHalt : Obligations.TraceGrowsAndHaltIsByHalt := by
  intro s t h
  have hrun : s.halted = false := (step_next h).1
  rcases step_effect h with ⟨-, ht, hh⟩ | ⟨i, w1, ws, pc', hw, he, heff⟩
  · exact ⟨.inl ht, fun hend => by simp [hh, hrun] at hend⟩
  · cases heff with
    | quiet hq =>
      obtain ⟨-, ht, hh⟩ := hq
      exact ⟨.inl (by simpa using ht), fun hend => by simp [hh, hrun] at hend⟩
    | io hv hp hm ht hh =>
      refine ⟨.inr ⟨by simpa using hp, by simpa using ht, w1, hw, ?_⟩, fun hend => by simp [hh, hrun] at hend⟩
      rw [encode] at he
      rcases hv with hv | hv
      · rw [hv] at he
        exact List.mem_append_left [0xB8, 0xBE, 0xBF] (opByte_of_input he)
      · rw [hv] at he
        exact List.mem_append_right [0xB0, 0xB6, 0xB7] (opByte_of_output he)
    | halt hv ht =>
      refine ⟨.inl (by simp [ht]), fun _ => ?_⟩
      rw [encode, hv] at he
      obtain ⟨rfl, -⟩ := List.cons.inj he
      exact hw

/-- Settles O55. -/
theorem invariantAtReset : Obligations.InvariantAtReset := Memory.wf_reset

end Sys2Proof.Machine
end

section
/-! SUPPORT. Accesses to memory: the bytes of a word, the checks and the ports (20_memory.md R63 to R75), and the proofs of the statements
O14, O15, O16 and O39. -/

namespace Sys2Proof.Machine

/-! ## Bytes and words as numbers -/

theorem highByte_eq_ofNat (w : Word) : highByte w = BitVec.ofNat 8 (w.toNat / 256) := by
  rw [← toNat_highByte, BitVec.ofNat_toNat, BitVec.setWidth_eq]

theorem lowByte_eq_ofNat (w : Word) : lowByte w = BitVec.ofNat 8 (w.toNat % 256) := by
  rw [← toNat_lowByte, BitVec.ofNat_toNat, BitVec.setWidth_eq]

theorem wordOfBytes_eq_ofNat (hi lo : Byte) : wordOfBytes hi lo = BitVec.ofNat 16 (hi.toNat * 256 + lo.toNat) := by
  rw [← toNat_wordOfBytes, BitVec.ofNat_toNat, BitVec.setWidth_eq]

/-- The word at an address is made of the two bytes there. -/
theorem Memory.readWord_eq_some_iff {m : Memory} {a w : Word} :
    m.readWord a = some w ↔ m.read a.toNat = some (highByte w) ∧ m.read (a + 1#16).toNat = some (lowByte w) :=
  (holdsWord_iff (s := State.reset.withMem m)).symm

/-- The address after an even address does not wrap. -/
theorem toNat_add_one_of_even {a : Word} (h : a.toNat % 2 = 0) : (a + 1#16).toNat = a.toNat + 1 := by
  bv_omega

/-- The aligned word around an address begins at the even address below it. -/
theorem toNat_and_FFFE (a : Word) : (a &&& 0xFFFE#16).toNat = a.toNat / 2 * 2 := by
  have h : a &&& 0xFFFE#16 = (a >>> 1) <<< 1 := by
    have hmask : ∀ i < 16, (0xFFFE#16).getLsbD i = decide (0 < i) := by decide
    refine BitVec.eq_of_getLsbD_eq fun i hi => ?_
    rw [BitVec.getLsbD_and, hmask i hi]
    cases i <;> simp [hi, Nat.add_comm]
  rw [h, BitVec.toNat_shiftLeft, BitVec.toNat_ushiftRight]
  have := a.isLt
  simp [Nat.shiftLeft_eq, Nat.shiftRight_eq_div_pow]
  omega

/-! ## A word written, a byte written -/

/-- A word written at an even address, byte by byte (R63, R65, R67). -/
theorem byteAt_writeWord {s : State} {a : Word} (he : a.toNat % 2 = 0) (w : Word) :
    (s.withMem (s.mem.writeWord a w)).byteAt a.toNat = some (BitVec.ofNat 8 (w.toNat / 256)) ∧
      (s.withMem (s.mem.writeWord a w)).byteAt (a.toNat + 1) = some (BitVec.ofNat 8 (w.toNat % 256)) := by
  rw [← toNat_add_one_of_even he, ← highByte_eq_ofNat, ← lowByte_eq_ofNat]
  exact Memory.readWord_eq_some_iff.1 (Memory.readWord_writeWord s.mem a w)

/-- A byte written at an even address is the high half of the word there (R65). -/
theorem Memory.readWord_write_even {m : Memory} {a w : Word} (h : m.readWord a = some w) (b : Byte) :
    (m.write a.toNat b).readWord a = some (wordOfBytes b (lowByte w)) := by
  obtain ⟨-, hlo⟩ := Memory.readWord_eq_some_iff.1 h
  refine Memory.readWord_eq_some_iff.2 ⟨by simp, ?_⟩
  rw [Memory.read_write_ne _ _ _ _ (next_ne_self a), hlo, lowByte_wordOfBytes]

/-- A byte written after an even address is the low half of the word there (R65). -/
theorem Memory.readWord_write_odd {m : Memory} {a w : Word} (h : m.readWord a = some w) (b : Byte) :
    (m.write (a + 1#16).toNat b).readWord a = some (wordOfBytes (highByte w) b) := by
  obtain ⟨hhi, -⟩ := Memory.readWord_eq_some_iff.1 h
  refine Memory.readWord_eq_some_iff.2 ⟨?_, by simp⟩
  rw [Memory.read_write_ne _ _ _ _ (next_ne_self a).symm, hhi, highByte_wordOfBytes]

/-- Settles O14. -/
theorem wordWriteIsTwoBytesBigEndian : Obligations.WordWriteIsTwoBytesBigEndian := by
  intro s a w hw
  obtain ⟨hhi, hlo⟩ := byteAt_writeWord (s := s) hw.1 w
  exact ⟨_, State.writeWord_ok.2 ⟨checkWord_of_writable hw, rfl⟩, hhi, hlo, Memory.readWord_writeWord _ _ _,
    onlyRegsBytes_writeWord s a w⟩

/-- Settles O15: the byte written is one of the two that make the aligned word. -/
theorem byteWriteKeepsTheOtherByte : Obligations.ByteWriteKeepsTheOtherByte := by
  intro s a b hb
  refine ⟨_, State.writeByte_ok.2 ⟨checkByte_of_writable hb, rfl⟩, Memory.read_write_same _ _ _,
    onlyRegsBytes_writeByte s a b, fun w hw => ?_⟩
  have hbase := toNat_and_FFFE a
  split
  · next he =>
    have ha : a &&& 0xFFFE#16 = a := BitVec.eq_of_toNat_eq (by omega)
    rw [ha] at hw ⊢
    rw [← toNat_lowByte, ← wordOfBytes_eq_ofNat]
    exact Memory.readWord_write_even hw b
  · next ho =>
    have ha : (a &&& 0xFFFE#16) + 1#16 = a := by
      refine BitVec.eq_of_toNat_eq ?_
      rw [toNat_add_one_of_even (by omega)]
      omega
    have h := Memory.readWord_write_odd hw b
    rw [ha] at h
    rw [← toNat_highByte, ← wordOfBytes_eq_ofNat]
    exact h

/-! ## The checks of a word access -/

/-- A word write to an even address of the ROM that is not rejected is refused (R67, R75). -/
theorem checkWord_of_rom {s : State} {a : Word} (h : a.toNat % 2 = 0) (hr : s.rejects .write a = false)
    (h1 : 0xF000 ≤ a.toNat) (h2 : a.toNat < 0xFFE0) : s.checkWord .write a = .refused .romWrite := by
  have he : a.getLsbD 0 = false := by rw [lsb_eq_decide, decide_eq_false (by omega)]
  have hg : regionOf a = .rom := by rw [regionOf, if_neg (by omega), if_neg (by omega), if_pos h2]
  simp only [State.checkWord, he, hr, hg, Bool.false_eq_true, if_false]

theorem readWord_of_refused {s : State} {kind : AccessKind} {a : Word} {r : Refusal} (h : s.checkWord kind a = .refused r) :
    s.readWord kind a = .refused r := by
  simp [State.readWord, Access.bind, h]

theorem writeWord_of_raised {s : State} {a w : Word} {e : Exc} (h : s.checkWord .write a = .raised e) :
    s.writeWord a w = .raised e := by
  simp [State.writeWord, Access.map, h]

theorem writeWord_of_refused {s : State} {a w : Word} {r : Refusal} (h : s.checkWord .write a = .refused r) :
    s.writeWord a w = .refused r := by
  simp [State.writeWord, Access.map, h]

/-- Settles O16, check by check in their order. -/
theorem wordAccessChecks : Obligations.WordAccessChecks := by
  intro s kind a w
  exact ⟨fun ho => ⟨readWord_of_raised (checkWord_of_odd ho), writeWord_of_raised (checkWord_of_odd ho)⟩,
    fun he hr => readWord_of_raised (checkWord_of_rejected he hr),
    fun he hr => writeWord_of_raised (checkWord_of_rejected he hr),
    fun hp => State.rejects_privileged hp kind a,
    fun he hr h1 h2 => readWord_of_refused (checkWord_of_reserved he hr h1 h2),
    fun he hr h1 h2 => writeWord_of_refused (checkWord_of_reserved he hr h1 h2),
    fun he hr h1 h2 => writeWord_of_refused (checkWord_of_rom he hr h1 h2)⟩

/-! ## 16-bit accesses to odd ports -/

/-- A port is odd when the address is (R71). -/
theorem portOf_odd {a : Word} (h : a.toNat % 2 = 1) : (portOf a).getLsbD 0 = true := by
  rw [BitVec.getLsbD, Nat.testBit_zero, portOf, toNat_field, decide_eq_true_eq]
  omega

theorem ioRead_odd {s : State} {port : Byte} (h : port.getLsbD 0 = true) : s.ioRead port 2 = .refused .oddIoPort := by
  simp [State.ioRead, h]

theorem ioWrite_odd {s : State} {port : Byte} (h : port.getLsbD 0 = true) (w : Word) :
    s.ioWrite port 2 w = .refused .oddIoPort := by
  simp [State.ioWrite, h]

/-- In privileged mode a gated instruction goes on (R341). -/
theorem gated_privileged {s : State} (h : s.flag.p = true) (o : PrivOp) (k : Result) : gated o s k = k := by
  simp [gated, h]

/-- Settles O39. -/
theorem oddPortWordAccessIsRefused : Obligations.OddPortWordAccessIsRefused := by
  intro rd e s hp h2 ho
  rw [exec_ofIn, exec_ofOut, doIn, doOut, gated_privileged hp, gated_privileged hp, h2, ioRead_odd (portOf_odd ho),
    ioWrite_odd (portOf_odd ho)]
  exact ⟨rfl, rfl⟩

end Sys2Proof.Machine
end

section
/-! SUPPORT. Trap entry that can be done, and the instructions whose access fails (60_exceptions.md R321, R335, R339), and the proofs of
the statements O48 and O49. -/

namespace Sys2Proof.Machine

/-! ## Trap entry that can be done (R335) -/

theorem Cause.vector_eq_vectorAt (c : Cause) : c.vector = vectorAt c.number := by
  rw [Cause.vector, vectorAt, BitVec.ofNat_add]

theorem lsb_of_even {a : Word} (h : a.toNat % 2 = 0) : a.getLsbD 0 = false := by
  rw [lsb_eq_decide, decide_eq_false (by omega)]

theorem vectorAt_even (n : Nat) : (vectorAt n).toNat % 2 = 0 := by
  rw [vectorAt, BitVec.toNat_ofNat]
  omega

/-- A word write at an aligned address leaves a word at every aligned address that held one. -/
theorem Memory.exists_readWord_writeWord {m : Memory} {a b h : Word} (ha : a.toNat % 2 = 0) (hb : b.toNat % 2 = 0) (w : Word)
    (hm : m.readWord b = some h) : ∃ h', (m.writeWord a w).readWord b = some h' := by
  by_cases hab : a = b
  · exact ⟨w, by rw [hab, Memory.readWord_writeWord]⟩
  · exact ⟨h, by rw [Memory.readWord_writeWord_other m a b w (lsb_of_even ha) (lsb_of_even hb) hab, hm]⟩

theorem writableWord_enterSystem {s : State} {a : Word} (he : a.toNat % 2 = 0) (h : a.toNat < 0xE000 ∨ 0xFFE0 ≤ a.toNat) :
    writableWord s.enterSystem a :=
  ⟨he, State.rejects_privileged rfl _ _, h⟩

theorem sub_two_even {a : Word} (h : a.toNat % 2 = 0) : (a - 2#16).toNat % 2 = 0 := by bv_omega

theorem sub_two_odd {a : Word} (h : a.toNat % 2 = 1) : (a - 2#16).toNat % 2 = 1 := by bv_omega

theorem sub_two_sub_two (a : Word) : a - 2#16 - 2#16 = a - 4#16 := by bv_omega

theorem getLsbD_pending_acknowledge (s : State) (c : Cause) {k : Nat} (hk : k < 10) :
    (s.acknowledge c).pending.getLsbD k = (s.pending.getLsbD k && k != c.number) := by
  cases c with
  | interrupt n =>
    have hbit : (1#10 <<< n.val).getLsbD k = decide (k = n.val) := by
      have h := BitVec.getLsbD_twoPow (w := 10) n.val k
      rw [BitVec.twoPow] at h
      rw [h]
      simp [n.isLt, eq_comm]
    rw [State.acknowledge, State.pending_withPending, BitVec.getLsbD_and, BitVec.getLsbD_not, hbit, Cause.number]
    simp [hk, bne, BEq.beq]
  | exception e =>
    have hne : k ≠ e.number := by cases e <;> simp only [Exc.number] <;> omega
    simp [State.acknowledge, Cause.number, hne]

theorem get_trapped (c : Cause) (retpc handler : Word) (s : State) {x : Reg} (h1 : x ≠ .ssp) (h2 : x ≠ .pc) :
    (trapped c retpc handler s).get x = s.get x := by
  cases x with
  | g n => cases c <;> rfl
  | ssp => exact absurd rfl h1
  | usp => cases c <;> rfl
  | pc => exact absurd rfl h2

/-- The state that trap entry leaves is what the spec's trap entry leaves (R335). -/
theorem trapEffect_trapped {c : Cause} {retpc handler : Word} {s : State} (he : s.ssp.toNat % 2 = 0)
    (hv : (trapped c retpc handler s).mem.readWord c.vector = some handler) :
    trapEffect c.number retpc s (trapped c retpc handler s) := by
  have he2 := sub_two_even he
  have hmem := mem_trapped c retpc handler s
  rw [sub_two_sub_two] at hmem
  have he4 : (s.ssp - 4#16).toNat % 2 = 0 := sub_two_sub_two s.ssp ▸ sub_two_even he2
  have hret : holdsWord (trapped c retpc handler s) (s.ssp - 2#16) retpc := by
    have hne : s.ssp - 4#16 ≠ s.ssp - 2#16 := by bv_omega
    rw [holdsWord_iff, hmem, Memory.readWord_writeWord_other _ _ _ _ (lsb_of_even he4) (lsb_of_even he2) hne,
      Memory.readWord_writeWord]
  have hflag : holdsWord (trapped c retpc handler s) (s.ssp - 4#16) s.flag.toWord := by
    rw [holdsWord_iff, hmem, Memory.readWord_writeWord]
  have hpc : holdsWord (trapped c retpc handler s) (vectorAt c.number) (trapped c retpc handler s).pc := by
    rw [holdsWord_iff, ← Cause.vector_eq_vectorAt, hv]
    rfl
  have hbytes : sameBytesBut [s.ssp - 2#16, s.ssp - 2#16 + 1#16, s.ssp - 4#16, s.ssp - 4#16 + 1#16] s
      (trapped c retpc handler s) := by
    intro a ha
    rw [State.byteAt, hmem, Memory.read_writeWord_other _ _ _ _ (ha _ (by simp)) (ha _ (by simp)),
      Memory.read_writeWord_other _ _ _ _ (ha _ (by simp)) (ha _ (by simp)), State.byteAt]
  have hregs : sameRegsBut [.ssp, .pc] s (trapped c retpc handler s) := by
    intro x hx
    simp only [List.mem_cons, List.not_mem_nil, or_false, not_or] at hx
    exact get_trapped c retpc handler s hx.1 hx.2
  have hpend : ∀ k, k < 10 → (trapped c retpc handler s).pending.getLsbD k = (s.pending.getLsbD k && k != c.number) := by
    intro k hk
    rw [← getLsbD_pending_acknowledge s c hk]
    cases c <;> rfl
  have hssp : (trapped c retpc handler s).ssp = s.ssp - 4#16 := by
    rw [← sub_two_sub_two]
    cases c <;> rfl
  refine ⟨?_, hssp, hregs, hret, hflag, hpc, hbytes, hpend, ?_⟩
  · cases c <;> rfl
  · cases c <;> exact ⟨rfl, rfl, rfl, rfl, rfl, rfl, rfl⟩

/-- Trap entry that can be done is done (R335). -/
theorem trapEntry_of_trapReady {c : Cause} {s : State} (retpc : Word) (h : trapReady c.number s) :
    ∃ t, trapEntry c retpc s = .next t ∧ trapEffect c.number retpc s t := by
  obtain ⟨he, hw2, hw4, v, hv⟩ := h
  have he2 := sub_two_even he
  have he4 := sub_two_even he2
  have hve : c.vector.toNat % 2 = 0 := by
    rw [Cause.vector_eq_vectorAt]
    exact vectorAt_even _
  rw [← Cause.vector_eq_vectorAt, holdsWord_iff] at hv
  obtain ⟨v1, hv1⟩ := Memory.exists_readWord_writeWord he2 hve retpc hv
  obtain ⟨handler, hh⟩ := Memory.exists_readWord_writeWord he4 hve s.flag.toWord hv1
  refine ⟨trapped c retpc handler s, trapEntry_eq (checkWord_of_writable (writableWord_enterSystem he2 hw2))
    (checkWord_of_writable (writableWord_enterSystem he4 ?_)) hh, trapEffect_trapped he ?_⟩
  · rwa [sub_two_sub_two]
  · rwa [mem_trapped]

/-- An exception whose trap entry can be done is taken, with the address of the next instruction as return address (R321, D23). -/
theorem raise_of_trapReady {ex : Exc} {s : State} (h : trapReady ex.number s) :
    ∃ t, raise ex s = .next t ∧ trapEffect ex.number s.pc s t :=
  trapEntry_of_trapReady (c := .exception ex) s.pc h

/-- An instruction that is an exception takes its trap. -/
theorem trap_of_eq_raise {r : Result} {ex : Exc} {s : State} (hr : r = raise ex s) (h : trapReady ex.number s) :
    ∃ t, r = .next t ∧ trapEffect ex.number s.pc s t := by
  rw [hr]
  exact raise_of_trapReady h

/-- Through an odd SSP no exception can be taken (R339, U28). -/
theorem raise_of_odd_ssp {ex : Exc} {s : State} (h : s.ssp.toNat % 2 = 1) : raise ex s = .refused .trapEntryFault := by
  have hp : s.enterSystem.push s.pc = .raised .addressError := push_of_raised (checkWord_of_odd (sub_two_odd h))
  rw [raise, trapEntry, hp, Access.inTrap]

/-! ## Instructions whose access fails -/

/-- An operation whose operand access raises an exception takes it; MULL and DIVL do where Rd is even (R201, R321). -/
theorem doEa_of_raised {o : EaOp} {rd : RegNum} {e : Ea} {s : State} {ex : Exc}
    (hrd : o = .mull ∨ o = .divl → rd.toNat % 2 = 0) (h : operand s e = .raised ex) : doEa o rd e s = raise ex s := by
  have hodd : o = .mull ∨ o = .divl → rd.getLsbD 0 = false := by
    intro ho
    rw [BitVec.getLsbD, Nat.testBit_zero, decide_eq_false_iff_not, hrd ho]
    decide
  cases o with
  | mull =>
    rw [doEa, doMull, if_neg (by rw [hodd (.inl rfl)]; decide)]
    exact operand_raised h _
  | divl =>
    rw [doEa, doDivl, if_neg (by rw [hodd (.inr rfl)]; decide)]
    exact operand_raised h _
  | _ => exact operand_raised h _

theorem doSt_of_raised_word {rd : RegNum} {e : MemEa} {s : State} {ex : Exc} (hw : (storeTarget s e).2 = 2)
    (h : s.checkWord .write (storeTarget s e).1 = .raised ex) : doSt rd e s = raise ex s := by
  rw [doSt, if_pos hw, writeWord_of_raised h, Access.run_raised]

theorem doSt_of_raised_byte {rd : RegNum} {e : MemEa} {s : State} {ex : Exc} (hw : (storeTarget s e).2 ≠ 2)
    (h : s.checkByte .write (storeTarget s e).1 = .raised ex) : doSt rd e s = raise ex s := by
  rw [doSt, if_neg hw, State.writeByte, h, Access.map, Access.run_raised]

/-- ST at an address that the protection rejects (R72, R173): for a word mode the address is even, or AddressError comes first. -/
theorem doSt_of_rejected {rd : RegNum} {e : MemEa} {s : State}
    (he : (storeTarget s e).2 = 2 → (storeTarget s e).1.toNat % 2 = 0) (hr : s.rejects .write (storeTarget s e).1 = true) :
    doSt rd e s = raise .memoryViolation s := by
  by_cases hw : (storeTarget s e).2 = 2
  · exact doSt_of_raised_word hw (checkWord_of_rejected (he hw) hr)
  · exact doSt_of_raised_byte hw (checkByte_of_rejected hr)

theorem namesSp_of_ne {s : State} {rd : RegNum} (h : s.reg rd ≠ s.reg spNum) : s.namesSp rd = false := by
  rw [← Bool.not_eq_true, State.namesSp_iff]
  exact h

/-- PUSH of an Rd that does not name the stack pointer in use, and CALL, when the write below SP raises an exception (R258, R281). -/
theorem exec_push_or_call_of_raised {s : State} {rd : RegNum} {e : JumpEa} {i : Instr} {ex : Exc}
    (hi : (i = .push rd ∧ s.reg rd ≠ s.reg spNum) ∨ i = .ofCall e)
    (h : s.checkWord .write (s.x spNum - 2#16) = .raised ex) : exec i s = raise ex s := by
  rcases hi with ⟨rfl, hrd⟩ | rfl
  · change doPush rd s = _
    rw [doPush, namesSp_of_ne hrd, push_of_raised h]
    rfl
  · rw [exec_ofCall, doCall, push_of_raised h, Access.run_raised]

/-- POP of an Rd that does not name the stack pointer in use, and RET, when the read at SP raises an exception (R282, R283). -/
theorem exec_pop_or_ret_of_raised {s : State} {rd : RegNum} {i : Instr} {ex : Exc}
    (hi : (i = .pop rd ∧ s.reg rd ≠ s.reg spNum) ∨ i = .ret)
    (h : s.checkWord .read (s.x spNum) = .raised ex) : exec i s = raise ex s := by
  rcases hi with ⟨rfl, hrd⟩ | rfl
  · change doPop rd s = _
    rw [doPop, namesSp_of_ne hrd, pop_of_raised h]
    rfl
  · change doRet s = _
    rw [doRet, pop_of_raised h, Access.run_raised]

/-- RETI in privileged mode, when the read at SP raises an exception (R284). -/
theorem exec_reti_of_raised {s : State} {ex : Exc} (hp : s.flag.p = true) (h : s.checkWord .read (s.x spNum) = .raised ex) :
    exec .reti s = raise ex s := by
  change doReti s = _
  rw [doReti, if_pos hp, State.trapReturn, pop_of_raised h, Access.bind, Access.run_raised]

/-- With an odd SP every stack access of PUSH, POP, CALL and RET raises AddressError (R68). -/
theorem exec_stack_of_odd {s : State} {rd : RegNum} {e : JumpEa} {i : Instr}
    (hi : ((i = .push rd ∨ i = .pop rd) ∧ s.reg rd ≠ s.reg spNum) ∨ i = .ofCall e ∨ i = .ret)
    (h : (s.x spNum).toNat % 2 = 1) : exec i s = raise .addressError s := by
  have hwrite : s.checkWord .write (s.x spNum - 2#16) = .raised .addressError := checkWord_of_odd (sub_two_odd h)
  have hread : s.checkWord .read (s.x spNum) = .raised .addressError := checkWord_of_odd h
  rcases hi with ⟨hi | hi, hrd⟩ | hi | hi
  · exact exec_push_or_call_of_raised (e := e) (.inl ⟨hi, hrd⟩) hwrite
  · exact exec_pop_or_ret_of_raised (.inl ⟨hi, hrd⟩) hread
  · exact exec_push_or_call_of_raised (rd := rd) (.inr hi) hwrite
  · exact exec_pop_or_ret_of_raised (rd := rd) (.inr hi) hread

/-! ## Operands that cannot be read -/

/-- The address of a word-mode operand that reads memory, as R152 to R157 give it. -/
theorem operand_eq_readWord {s : State} {dsp a : Word} {rx : RegNum} {d4 : BitVec 4} {e : Ea}
    (h : (e = .direct dsp ∧ a = dsp) ∨ (e = .indexed dsp rx ∧ a = BitVec.ofNat 16 (dsp.toNat + (s.x rx).toNat)) ∨
      (e = .fpRel d4 ∧ a = BitVec.ofInt 16 ((s.x 12#4).toInt + 2 * d4.toInt)) ∨ (e = .indirect rx ∧ a = s.x rx)) :
    operand s e = s.readWord .read a := by
  rcases h with ⟨rfl, rfl⟩ | ⟨rfl, rfl⟩ | ⟨rfl, rfl⟩ | ⟨rfl, rfl⟩
  · rfl
  · rw [operand, BitVec.ofNat_add, BitVec.ofNat_toNat, BitVec.ofNat_toNat, BitVec.setWidth_eq, BitVec.setWidth_eq]
  · rw [operand, State.fpAddress, BitVec.ofInt_add, BitVec.ofInt_toInt, BitVec.add_comm]
    rfl
  · rfl

theorem readByte_of_rejected {s : State} {a : Word} (h : s.rejects .read a = true) :
    s.readByte a = .raised .memoryViolation := by
  rw [State.readByte, checkByte_of_rejected h, Access.bind]

/-! ## The statements -/

/-- Settles O48: each instruction is the exception its access raises, and an exception is the trap. -/
theorem failedOperandAccessTraps : Obligations.FailedOperandAccessTraps := by
  refine ⟨fun o rd e s ex hrd h hready => ?_, fun s dsp a rx d4 e => ⟨fun ha => ?_, fun hr => ?_⟩,
    fun rd e s => ⟨fun hw ho hready => ?_, fun he hr hready => ?_⟩, fun s rd e i he hready => ⟨fun hi hr => ?_, fun hi hr => ?_⟩⟩
  · exact trap_of_eq_raise ((exec_ofEa o rd e s).trans (doEa_of_raised hrd h)) hready
  · rw [operand_eq_readWord ha]
    exact ⟨fun ho => readWord_of_raised (checkWord_of_odd ho), fun he hr => readWord_of_raised (checkWord_of_rejected he hr)⟩
  · rw [operand, readByte_of_rejected hr, Access.map]
  · exact trap_of_eq_raise (ex := .addressError) ((exec_ofSt rd e s).trans (doSt_of_raised_word hw (checkWord_of_odd ho))) hready
  · exact trap_of_eq_raise (ex := .memoryViolation) ((exec_ofSt rd e s).trans (doSt_of_rejected he hr)) hready
  · exact trap_of_eq_raise (ex := .memoryViolation)
      (exec_push_or_call_of_raised hi (checkWord_of_rejected (sub_two_even he) hr)) hready
  · exact trap_of_eq_raise (ex := .memoryViolation) (exec_pop_or_ret_of_raised hi (checkWord_of_rejected he hr)) hready

/-- Settles O49: the stack access raises AddressError, whose trap entry goes through SSP, the odd pointer itself in privileged mode. -/
theorem oddStackPointerTraps : Obligations.OddStackPointerTraps := by
  refine fun s rd e i => ⟨fun hi hp ho hready => ?_, fun hi hp ho => ?_⟩
  · exact trap_of_eq_raise (ex := .addressError) (exec_stack_of_odd hi (by rwa [State.x_sp_user hp])) hready
  · have hsp : (s.x spNum).toNat % 2 = 1 := by rwa [State.x_sp_privileged hp]
    rw [← raise_of_odd_ssp (ex := .addressError) ho]
    rcases hi with hi | hi | hi | rfl
    · exact exec_stack_of_odd (e := e) (.inl hi) hsp
    · exact exec_stack_of_odd (rd := rd) (.inr (.inl hi)) hsp
    · exact exec_stack_of_odd (rd := rd) (e := e) (.inr (.inr hi)) hsp
    · exact exec_reti_of_raised hp (checkWord_of_odd hsp)

end Sys2Proof.Machine
end

section
/-! SUPPORT. Bytes decoded and words encoded (30_encoding.md R110 to R127): when bytes decode to an instruction, how many words an
encoding has, the opcode map of R118 and its blank cells, the assembler's short forms, and the proofs of the statements O1 to O5 and O13. -/

namespace Sys2Proof

open Sys2Proof.Machine

/-! ## Bytes that decode -/

theorem bytesOfWords_wordOfBytes (b0 b1 : Byte) (ws : List Word) :
    bytesOfWords (wordOfBytes b0 b1 :: ws) = b0 :: b1 :: bytesOfWords ws := by
  rw [bytesOfWords, highByte_wordOfBytes, lowByte_wordOfBytes]

/-- The words that complete a first word decode to its instruction, whatever follows them (R115). -/
theorem decode_of_complete {w1 : Word} {ws : List Word} {i : Instr} (h : (decodeFirst w1).complete ws = some i) (rest : List Byte) :
    decode (bytesOfWords (w1 :: ws) ++ rest) = .instr i rest := by
  rcases First.complete_eq_some h with ⟨hd, rfl⟩ | ⟨f, w2, hd, rfl, rfl⟩
  all_goals simp only [bytesOfWords, List.cons_append, List.nil_append, decode, wordOfBytes_high_low, hd]

/-- Bytes that decode to an instruction are a first word with the words that complete it, and the bytes left over (R115). -/
theorem complete_of_decode {bytes rest : List Byte} {i : Instr} (h : decode bytes = .instr i rest) :
    ∃ w1 ws, bytes = bytesOfWords (w1 :: ws) ++ rest ∧ (decodeFirst w1).complete ws = some i := by
  match bytes with
  | [] | [_] => exact nomatch h
  | b0 :: b1 :: tail =>
    rw [decode] at h
    split at h
    · exact nomatch h
    · exact nomatch h
    · next j hd =>
      obtain ⟨rfl, rfl⟩ := Decoded.instr.inj h
      exact ⟨wordOfBytes b0 b1, [], by rw [bytesOfWords_wordOfBytes]; rfl, by rw [hd, First.complete]⟩
    · next f hd =>
      match tail with
      | [] | [_] => exact nomatch h
      | b2 :: b3 :: tail =>
        obtain ⟨rfl, rfl⟩ := Decoded.instr.inj h
        exact ⟨wordOfBytes b0 b1, [wordOfBytes b2 b3], by rw [bytesOfWords_wordOfBytes, bytesOfWords_wordOfBytes]; rfl,
          by rw [hd, First.complete]⟩

/-! ## One word or two (R110, R115) -/

/-- The words of an encoding are a first word and at most one more, which is there exactly in the rows 1 to 23 and the modes 0 to 2. -/
def SecondWordByMode (words : List Word) : Prop :=
  ∃ (w1 : Word) (rest : List Word), words = w1 :: rest ∧ rest.length ≤ 1 ∧
    (rest.length = 1 ↔ (1 ≤ (rowField w1).toNat ∧ (rowField w1).toNat ≤ 23 ∧ (modeField w1).toNat ≤ 2))

/-- An operand form has a second word exactly in the modes 0 to 2. -/
def OperandWordByMode (fields : BitVec 3 × RegNum × List Word) : Prop :=
  fields.2.2.length ≤ 1 ∧ (fields.2.2.length = 1 ↔ fields.1.toNat ≤ 2)

theorem Ea.operandWordByMode (e : Ea) : OperandWordByMode e.fields := by
  cases e <;> simp [OperandWordByMode, Ea.fields]

theorem MemEa.operandWordByMode (e : MemEa) : OperandWordByMode e.fields := by
  cases e <;> simp [OperandWordByMode, MemEa.fields]

theorem JumpEa.operandWordByMode (e : JumpEa) : OperandWordByMode e.fields := by
  cases e <;> simp [OperandWordByMode, JumpEa.fields]

theorem PortEa.operandWordByMode (e : PortEa) : OperandWordByMode e.fields := by
  cases e <;> simp [OperandWordByMode, PortEa.fields]

/-- A format with an operand, in one of the rows 1 to 23, has the words of its operand form. -/
theorem secondWordByMode_encodeWith {row : BitVec 5} {rd : RegNum} {fields : BitVec 3 × RegNum × List Word}
    (hrow : 1 ≤ row.toNat ∧ row.toNat ≤ 23) (h : OperandWordByMode fields) : SecondWordByMode (encodeWith row rd fields) := by
  obtain ⟨hlen, hmode⟩ := h
  refine ⟨_, _, rfl, hlen, ?_⟩
  rw [rowField_firstWord, modeField_firstWord, hmode]
  exact ⟨fun hm => ⟨hrow.1, hrow.2, hm⟩, fun ⟨_, _, hm⟩ => hm⟩

/-- A single word stands outside those rows or in a mode above 2. -/
theorem secondWordByMode_single {row : BitVec 5} {m : BitVec 3} {rd rx : BitVec 4}
    (h : ¬ (1 ≤ row.toNat ∧ row.toNat ≤ 23 ∧ m.toNat ≤ 2)) : SecondWordByMode [firstWord row m rd rx] :=
  ⟨_, _, rfl, Nat.zero_le 1, by rw [rowField_firstWord, modeField_firstWord]; exact ⟨nofun, fun hm => absurd hm h⟩⟩

theorem EaOp.row_bounds (o : EaOp) : 1 ≤ o.row.toNat ∧ o.row.toNat ≤ 23 := by cases o <;> decide

theorem secondWordByMode_encode (v : View) : SecondWordByMode v.encode := by
  cases v with
  | ea o rd e => exact secondWordByMode_encodeWith o.row_bounds e.operandWordByMode
  | st rd e => exact secondWordByMode_encodeWith (by decide) e.operandWordByMode
  | jump cc e => exact secondWordByMode_encodeWith (by decide) e.operandWordByMode
  | call e => exact secondWordByMode_encodeWith (by decide) e.operandWordByMode
  | input rd e => exact secondWordByMode_encodeWith (by decide) e.operandWordByMode
  | output rd e => exact secondWordByMode_encodeWith (by decide) e.operandWordByMode
  | no | ldFlag rd | push rd | pop rd | ret | reti | ei | di | svc | halt => exact secondWordByMode_single (by decide)

/-! ## The OP byte of each cell (R111, R113, R118) -/

/-- The OP byte is the row, then the mode (R113). -/
theorem firstWord_eq_mapWord (row : BitVec 5) (m : BitVec 3) (rd rx : BitVec 4) :
    firstWord row m rd rx = mapWord (row.toNat * 8 + m.toNat) rd rx := by
  apply BitVec.eq_of_toNat_eq
  rw [toNat_firstWord, mapWord, BitVec.toNat_ofNat]
  have := row.isLt; have := m.isLt; have := rd.isLt; have := rx.isLt
  omega

theorem encodeWith_eq_mapWord (row : BitVec 5) (rd : RegNum) (fields : BitVec 3 × RegNum × List Word) :
    encodeWith row rd fields = mapWord (row.toNat * 8 + fields.1.toNat) rd fields.2.1 :: fields.2.2 := by
  rw [encodeWith, firstWord_eq_mapWord]

/-- The hex base of a row of R118 is the row's number shifted past the mode. -/
theorem opBase_eq (o : EaOp) : opBase o = o.row.toNat * 8 := by cases o <;> rfl

/-- An instruction is encoded as the view that names it. -/
theorem encode_ofView (v : View) : encode (.ofView v) = v.encode := by rw [encode, Instr.view_ofView]

/-- The cell of an operation with a value operand is its base plus the mode number (R113, R118). -/
theorem encode_ofEa (o : EaOp) (rd : RegNum) (e : Ea) :
    encode (.ofEa o rd e) = mapWord (opBase o + e.fields.1.toNat) rd e.fields.2.1 :: e.fields.2.2 := by
  rw [opBase_eq]
  exact (encode_ofView (.ea o rd e)).trans (encodeWith_eq_mapWord o.row rd e.fields)

theorem encode_ofSt (rd : RegNum) (e : MemEa) :
    encode (.ofSt rd e) = mapWord (0x10 + e.fields.1.toNat) rd e.fields.2.1 :: e.fields.2.2 :=
  (encode_ofView (.st rd e)).trans (encodeWith_eq_mapWord 2 rd e.fields)

theorem encode_ofJump (cc : Cond) (e : JumpEa) :
    encode (.ofJump cc e) = mapWord (0xA0 + e.fields.1.toNat) cc.code e.fields.2.1 :: e.fields.2.2 :=
  (encode_ofView (.jump cc e)).trans (encodeWith_eq_mapWord 20 cc.code e.fields)

theorem encode_ofCall (e : JumpEa) :
    encode (.ofCall e) = mapWord (0xA8 + e.fields.1.toNat) 0 e.fields.2.1 :: e.fields.2.2 :=
  (encode_ofView (.call e)).trans (encodeWith_eq_mapWord 21 0 e.fields)

theorem encode_ofIn (rd : RegNum) (e : PortEa) :
    encode (.ofIn rd e) = mapWord (0xB0 + e.fields.1.toNat) rd e.fields.2.1 :: e.fields.2.2 :=
  (encode_ofView (.input rd e)).trans (encodeWith_eq_mapWord 22 rd e.fields)

theorem encode_ofOut (rd : RegNum) (e : PortEa) :
    encode (.ofOut rd e) = mapWord (0xB8 + e.fields.1.toNat) rd e.fields.2.1 :: e.fields.2.2 :=
  (encode_ofView (.output rd e)).trans (encodeWith_eq_mapWord 23 rd e.fields)

/-! ## The blank cells (R119) -/

/-- The first word is a blank cell of the opcode map. -/
def First.isUndefined {α : Type} : First α → Bool
  | .undefined => true
  | _ => false

theorem First.isUndefined_iff {α : Type} {x : First α} : x.isUndefined = true ↔ x = .undefined := by
  cases x <;> simp [First.isUndefined]

@[simp] theorem First.isUndefined_one {α : Type} (a : α) : (First.one a).isUndefined = false := rfl

@[simp] theorem First.isUndefined_two {α : Type} (f : Word → α) : (First.two f).isUndefined = false := rfl

@[simp] theorem First.isUndefined_map {α β : Type} (g : α → β) (x : First α) : (x.map g).isUndefined = x.isUndefined := by
  cases x <;> rfl

/-- A must-be-zero field refuses a word, it does not make its cell blank (R120). -/
@[simp] theorem First.isUndefined_ifZero {α : Type} (field : BitVec 4) (x : First α) :
    (First.ifZero field x).isUndefined = (decide (field = 0#4) && x.isUndefined) := by
  by_cases h : field = 0#4
  · rw [ifZero, if_pos h, decide_eq_true h, Bool.true_and]
  · rw [ifZero, if_neg h, decide_eq_false h, Bool.false_and, isUndefined]
    exact nofun

theorem isUndefined_decodeEa (m : BitVec 3) (rx : RegNum) : (decodeEa m rx).isUndefined = false := by
  unfold decodeEa
  split <;> simp

theorem isUndefined_decodeMemEa (m : BitVec 3) (rx : RegNum) :
    (decodeMemEa m rx).isUndefined = (decodeMemEa m 0).isUndefined := by
  unfold decodeMemEa
  split <;> simp

theorem isUndefined_decodeJumpEa (m : BitVec 3) (rx : RegNum) :
    (decodeJumpEa m rx).isUndefined = (decodeJumpEa m 0).isUndefined := by
  unfold decodeJumpEa
  split <;> simp

theorem isUndefined_decodePortEa (m : BitVec 3) (rx : RegNum) :
    (decodePortEa m rx).isUndefined = (decodePortEa m 0).isUndefined := by
  unfold decodePortEa
  split <;> simp

/-- A jump's cell is blank by its mode alone, whatever its condition (R119). -/
theorem isUndefined_decodeJump (m : BitVec 3) (rd rx : RegNum) :
    (decodeJump m rd rx).isUndefined = (decodeJumpEa m rx).isUndefined := by
  unfold decodeJump
  cases decodeJumpEa m rx <;> cases Cond.ofCode rd <;> rfl

/-- A CALL's cell is blank by its mode alone, whatever its Rd field (R119). -/
theorem isUndefined_decodeCall (m : BitVec 3) (rd rx : RegNum) :
    (decodeCall m rd rx).isUndefined = (decodeJumpEa m rx).isUndefined := by
  unfold decodeCall
  cases decodeJumpEa m rx with
  | undefined => rfl
  | reserved | one | two => exact (First.isUndefined_ifZero rd _).trans (Bool.and_false _)

/-- Whether a cell is blank does not depend on the eight bits below its OP byte (R119). -/
theorem isUndefined_decodeView_firstWord (row : BitVec 5) (m : BitVec 3) (rd rx : RegNum) :
    (decodeView (firstWord row m rd rx)).isUndefined = (decodeView (firstWord row m 0 0)).isUndefined := by
  simp only [decodeView, rowField_firstWord, modeField_firstWord, rdField_firstWord, rxField_firstWord]
  split
  · simp only [First.isUndefined_map, isUndefined_decodeEa]
  · split <;> simp [isUndefined_decodeMemEa m rx, isUndefined_decodeJump, isUndefined_decodeCall, isUndefined_decodeJumpEa m rx,
      isUndefined_decodePortEa m rx]

/-- The opcode map with zero fields, cell by cell, against the list of R119. -/
theorem isUndefined_decodeView_zero_fields (row : BitVec 5) (m : BitVec 3) :
    (decodeView (firstWord row m 0 0)).isUndefined = decide (row.toNat * 8 + m.toNat ∈ blankCells) := by
  revert row m
  decide

theorem toNat_opByte (w : Word) : (w.extractLsb' 8 8).toNat = (rowField w).toNat * 8 + (modeField w).toNat := by
  rw [rowField, modeField, toNat_field, toNat_field, toNat_field]
  have := w.isLt
  omega

/-- A first word is undefined exactly in the blank cells (R119, D27). -/
theorem decodeFirst_eq_undefined_iff (w : Word) : decodeFirst w = .undefined ↔ (w.extractLsb' 8 8).toNat ∈ blankCells := by
  have hfields := isUndefined_decodeView_firstWord (rowField w) (modeField w) (rdField w) (rxField w)
  rw [firstWord_fields, isUndefined_decodeView_zero_fields] at hfields
  rw [← First.isUndefined_iff, decodeFirst, First.isUndefined_map, hfields, decide_eq_true_iff, toNat_opByte]

/-! ## The assembler's short forms (R116, R124) -/

/-- Half an even displacement that fits, kept in four bits, doubles back to it (R116). -/
theorem dsp4Of_half {d : Int} (h : d % 2 = 0 ∧ -16 ≤ d ∧ d ≤ 14) : dsp4Of (BitVec.ofInt 4 (d / 2)) = d := by
  rw [dsp4Of, BitVec.toInt_ofInt_eq_self (by decide) (by omega) (by omega)]
  omega

/-- A displacement added to a register as words is the sum of the integers (R153, R154). -/
theorem ofInt_add_word (d : Int) (x : Word) : BitVec.ofInt 16 d + x = BitVec.ofInt 16 (x.toInt + d) := by
  rw [BitVec.ofInt_add, BitVec.ofInt_toInt, BitVec.add_comm]

/-- A number that fits in four bits with a sign is what the 4-bit immediate extends to (R155). -/
theorem signExtend_ofInt_four {n : Int} (h : -8 ≤ n ∧ n ≤ 7) : (BitVec.ofInt 4 n).signExtend 16 = BitVec.ofInt 16 n := by
  rw [BitVec.signExtend, BitVec.toInt_ofInt_eq_self (by decide) (by omega) (by omega)]

/-- Either form of an immediate has the number as its operand (R124). -/
theorem operand_immForm (s : State) (n : Int) : operand s (immForm n) = .ok (BitVec.ofInt 16 n) := by
  unfold immForm
  split
  · next h => rw [operand, signExtend_ofInt_four h]
  · rfl

theorem immForm_eq_imm4_iff (n : Int) : (∃ i4, immForm n = .imm4 i4) ↔ (-8 ≤ n ∧ n ≤ 7) := by
  unfold immForm
  split
  · next h => exact ⟨fun _ => h, fun _ => ⟨_, rfl⟩⟩
  · next h => exact ⟨fun ⟨_, hi⟩ => (nomatch hi), fun hn => absurd hn h⟩

/-! ## The statements -/

/-- Settles O1: the words of an encoding complete its first word to the instruction. -/
theorem decodeOfEncodeIsTheInstruction : Obligations.DecodeOfEncodeIsTheInstruction := by
  intro i rest
  obtain ⟨w1, ws, he, hc⟩ := complete_decodeFirst_encode i
  rw [he, decode_of_complete hc]

/-- Settles O2: the words that complete a first word to an instruction are its encoding. -/
theorem decodedBytesAreTheEncoding : Obligations.DecodedBytesAreTheEncoding := by
  intro bytes i rest h
  obtain ⟨w1, ws, rfl, hc⟩ := complete_of_decode h
  rw [encode_of_complete_decodeFirst hc]

/-- Settles O3, operation by operation: the operand form decides. -/
theorem oneOrTwoWordsByMode : Obligations.OneOrTwoWordsByMode := fun i => secondWordByMode_encode i.view

/-- Settles O4: the OP byte of an encoding is its row and mode, and the decoder's blank cells are those of R119. -/
theorem blankCellsAreTheUndefinedWords : Obligations.BlankCellsAreTheUndefinedWords := by
  refine ⟨fun o cc rd rx f w2 => ⟨?ea, ?st, ?jump, ?call, ?input, ?output, ?push, ?pop⟩, ⟨rfl, rfl, rfl, rfl, rfl, rfl, rfl⟩, rfl,
    decodeFirst_eq_undefined_iff⟩
  case ea =>
    exact ⟨encode_ofEa o rd (.direct w2), encode_ofEa o rd (.indexed w2 rx), encode_ofEa o rd (.immediate w2),
      encode_ofEa o rd (.fpRel f), encode_ofEa o rd (.register rx), encode_ofEa o rd (.imm4 f), encode_ofEa o rd (.indirect rx),
      encode_ofEa o rd (.byteIndirect rx)⟩
  case st =>
    exact ⟨encode_ofSt rd (.direct w2), encode_ofSt rd (.indexed w2 rx), encode_ofSt rd (.fpRel f), encode_ofSt rd (.indirect rx),
      encode_ofSt rd (.byteIndirect rx), congrArg (fun w => [w]) (firstWord_eq_mapWord 2 4 rd 0)⟩
  case jump => exact ⟨encode_ofJump cc (.direct w2), encode_ofJump cc (.indexed w2 rx), encode_ofJump cc (.indirect rx)⟩
  case call => exact ⟨encode_ofCall (.direct w2), encode_ofCall (.indexed w2 rx), encode_ofCall (.indirect rx)⟩
  case input => exact ⟨encode_ofIn rd (.direct w2), encode_ofIn rd (.indirect rx), encode_ofIn rd (.byteIndirect rx)⟩
  case output => exact ⟨encode_ofOut rd (.direct w2), encode_ofOut rd (.indirect rx), encode_ofOut rd (.byteIndirect rx)⟩
  case push => exact congrArg (fun w => [w]) (firstWord_eq_mapWord 24 0 rd 0)
  case pop => exact congrArg (fun w => [w]) (firstWord_eq_mapWord 24 4 rd 0)

/-- Settles O5, each word by running the decoder on it. -/
theorem sampleWordsDecode : Obligations.SampleWordsDecode := by
  refine ⟨?_, ?_, ?_, ?_, ?_, ?_, ?_, ?_⟩ <;> decide

/-- Settles O13: the halved displacement doubles back, and either form adds to FP, or extends, as an integer does. -/
theorem fpDisplacementDoublesBack : Obligations.FpDisplacementDoublesBack := by
  refine ⟨fun s d _ _ => ⟨fun h => ⟨_, if_pos h, ?_⟩, fun h => ⟨_, if_neg h, ofInt_add_word d _⟩⟩,
    fun s n _ _ => ⟨operand_immForm s n, immForm_eq_imm4_iff n⟩⟩
  calc s.fpAddress (BitVec.ofInt 4 (d / 2))
      = BitVec.ofInt 16 (dsp4Of (BitVec.ofInt 4 (d / 2))) + s.x fpNum := rfl
    _ = BitVec.ofInt 16 ((s.x 12#4).toInt + d) := by rw [dsp4Of_half h, ofInt_add_word, fpNum]

end Sys2Proof
end

section
/-! SUPPORT. The operand modes (40_operands.md R150 to R159): the address and the field of the first word each mode names, and the proofs of
the statements O10, O11 and O12. -/

namespace Sys2Proof

open Sys2Proof.Machine

/-! ## Operands -/

/-- A byte that may be read is the operand of mode 7, with zeros above it (R158, D17). -/
theorem operand_byteIndirect_of_readable {s : State} {rx : RegNum} {b : Byte} (h : readableByte s (s.x rx) b) :
    operand s (.byteIndirect rx) = .ok (BitVec.ofNat 16 b.toNat) := by
  rw [operand, readByte_of_readable h, Access.map, BitVec.ofNat_toNat]

/-- The 4-bit immediate keeps its signed value when it is extended to a word (R155). -/
theorem toInt_signExtend_imm4 (i4 : BitVec 4) : (i4.signExtend 16).toInt = i4.toInt :=
  BitVec.toInt_signExtend_of_le (by decide)

/-- A signed 4-bit field is at least -8 and at most 7 (R155). -/
theorem toInt_four_bounds (i4 : BitVec 4) : -8 ≤ i4.toInt ∧ i4.toInt ≤ 7 := by
  have hlow := BitVec.le_toInt i4
  have hhigh := BitVec.toInt_lt (x := i4)
  omega

/-! ## The words of an operand form (R111, R113) -/

/-- The words are a first word with the form's low field and mode, then the form's second word where it has one. -/
theorem exists_encodeWith_rxField (row : BitVec 5) (rd : RegNum) (fields : BitVec 3 × RegNum × List Word) :
    ∃ w1, encodeWith row rd fields = w1 :: fields.2.2 ∧ w1.extractLsb' 0 4 = fields.2.1 :=
  ⟨_, rfl, rxField_firstWord row fields.1 rd fields.2.1⟩

theorem exists_encode_ofEa_rxField (o : EaOp) (rd : RegNum) (e : Ea) :
    ∃ w1, encode (.ofEa o rd e) = w1 :: e.fields.2.2 ∧ w1.extractLsb' 0 4 = e.fields.2.1 := by
  rw [show encode (.ofEa o rd e) = encodeWith o.row rd e.fields from encode_ofView (.ea o rd e)]
  exact exists_encodeWith_rxField o.row rd e.fields

theorem exists_encode_ofSt_rxField (rd : RegNum) (e : MemEa) :
    ∃ w1, encode (.ofSt rd e) = w1 :: e.fields.2.2 ∧ w1.extractLsb' 0 4 = e.fields.2.1 := by
  rw [show encode (.ofSt rd e) = encodeWith 2 rd e.fields from encode_ofView (.st rd e)]
  exact exists_encodeWith_rxField 2 rd e.fields

/-- ST is in row 2 of the opcode map, in the column of its mode (R118). -/
theorem toNat_opByte_encode_ofSt {rd : RegNum} {e : MemEa} {w1 : Word} {rest : List Word}
    (h : encode (.ofSt rd e) = w1 :: rest) : (w1.extractLsb' 8 8).toNat = 0x10 + e.fields.1.toNat := by
  have hw : firstWord 2 e.fields.1 rd e.fields.2.1 = w1 := (List.cons.inj ((encode_ofView (.st rd e)).symm.trans h)).1
  rw [← hw, toNat_opByte, rowField_firstWord, modeField_firstWord]
  rfl

/-- ST has the modes 0, 1, 3, 6 and 7 (R159). -/
theorem MemEa.mode_mem (e : MemEa) : e.fields.1.toNat ∈ [0, 1, 3, 6, 7] := by
  cases e with
  | direct | indexed | fpRel | indirect | byteIndirect => simp [MemEa.fields]

/-! ## The statements -/

/-- Settles O11: a word mode reads the word at its address, mode 7 the byte, and mode 4 is the register. -/
theorem memoryOperandsReadTheirAddress : Obligations.MemoryOperandsReadTheirAddress := by
  intro s dsp w rx d4 b
  have hread : ∀ {a : Word}, readableWord s .read a w → s.readWord .read a = .ok w := readWord_of_readable (by decide)
  refine ⟨fun h => ?direct, fun h => ?indexed, fun h => ?fpRel, rfl, fun h => ?indirect, operand_byteIndirect_of_readable⟩
  case direct => exact hread h
  case indexed => exact (operand_eq_readWord (d4 := d4) (.inr (.inl ⟨rfl, rfl⟩))).trans (hread h)
  case fpRel => exact (operand_eq_readWord (dsp := dsp) (rx := rx) (.inr (.inr (.inl ⟨rfl, rfl⟩)))).trans (hread h)
  case indirect => exact hread h

/-- Settles O10: neither operand looks at the state, and the sign extension keeps the value of the field. -/
theorem immediateOperands : Obligations.ImmediateOperands := by
  intro s w i4 m o rd
  obtain ⟨w1, hencode, -⟩ := exists_encode_ofEa_rxField o rd (.immediate w)
  refine ⟨rfl, ⟨w1, hencode⟩, ⟨i4.signExtend 16, rfl, toInt_signExtend_imm4 i4, ?_⟩, exists_encode_ofEa_rxField o rd (.imm4 i4)⟩
  rw [toInt_signExtend_imm4]
  exact toInt_four_bounds i4

/-- Settles O12: the sums of words are sums of numbers, and the modes of ST leave out 2, 4 and 5. -/
theorem storeTargetsOfEachMode : Obligations.StoreTargetsOfEachMode := by
  refine ⟨fun s dsp rx d4 => ⟨rfl, ?indexed, ?fpRel, rfl, rfl⟩, fun rd rx dsp d4 => ⟨?direct, ?words⟩, fun rd e w1 rest h => ?columns⟩
  case indexed => rw [storeTarget, BitVec.add_def]
  case fpRel => rw [storeTarget, State.fpAddress, BitVec.add_def, fpNum]
  case direct =>
    obtain ⟨w1, hencode, -⟩ := exists_encode_ofSt_rxField rd (.direct dsp)
    exact ⟨w1, hencode⟩
  case words =>
    exact ⟨exists_encode_ofSt_rxField rd (.indexed dsp rx), exists_encode_ofSt_rxField rd (.fpRel d4),
      exists_encode_ofSt_rxField rd (.indirect rx), exists_encode_ofSt_rxField rd (.byteIndirect rx)⟩
  case columns =>
    have hmode := e.mode_mem
    simp only [List.mem_cons, List.not_mem_nil, or_false] at hmode
    rw [toNat_opByte_encode_ofSt h]
    omega

end Sys2Proof
end

section
/-! SUPPORT. NO, LD, LD Rd,FLAG and ST (41_no_load_store.md R170 to R173): what LD and ST answer once their access succeeds, FLAG as a number,
and the proofs of the statements O17, O18, O19 and O20. -/

namespace Sys2Proof.Machine

/-! ## Instructions whose access succeeds -/

/-- LD of an operand that is found writes Rd (R171). -/
theorem doLd_of_ok {rd : RegNum} {e : Ea} {s : State} {v : Word} (h : operand s e = .ok v) :
    doLd rd e s = .next (s.setX rd v) := by
  rw [doLd, h, Access.run_ok]

/-- ST in a word mode completes as its word write does (R173). -/
theorem doSt_of_writeWord {rd : RegNum} {e : MemEa} {s t : State} (hw : (storeTarget s e).2 = 2)
    (h : s.writeWord (storeTarget s e).1 (s.x rd) = .ok t) : doSt rd e s = .next t := by
  rw [doSt, if_pos hw, h, Access.run_ok]

/-- ST in mode 7 completes as its byte write does (R173). -/
theorem doSt_of_writeByte {rd : RegNum} {e : MemEa} {s t : State} (hw : (storeTarget s e).2 ≠ 2)
    (h : s.writeByte (storeTarget s e).1 (lowByte (s.x rd)) = .ok t) : doSt rd e s = .next t := by
  rw [doSt, if_neg hw, h, Access.run_ok]

/-! ## FLAG as a number -/

/-- The six flags are bits 7, 6 and 3 to 0 of the flag word (R28). -/
theorem Flag.toNat_toWord (f : Flag) :
    f.toWord.toNat = 128 * f.e.toNat + 64 * f.p.toNat + 8 * f.v.toNat + 4 * f.c.toNat + 2 * f.s.toNat + f.z.toNat := by
  obtain ⟨e, p, v, c, s, z⟩ := f
  revert e p v c s z
  decide

/-! ## The statements -/

/-- Settles O17. -/
theorem noDoesNothing : Obligations.NoDoesNothing := fun _ => rfl

/-- Settles O18: LD is one register write. -/
theorem loadWritesRdOnly : Obligations.LoadWritesRdOnly := by
  intro rd e s v hv
  exact ⟨s.setX rd v, (exec_ofEa .ld rd e s).trans (doLd_of_ok hv), State.x_setX s rd v, onlyRegs_setX s rd v⟩

/-- Settles O19: LD Rd,FLAG is one register write, of the flag word. -/
theorem loadFlagGivesTheFlagWord : Obligations.LoadFlagGivesTheFlagWord := by
  intro rd s
  refine ⟨s.setX rd s.flag.toWord, rfl, onlyRegs_setX s rd _, ?_⟩
  rw [State.x_setX, Flag.toNat_toWord]

/-- Settles O20: ST is one memory write, so the statements about a word write (O14) and a byte write (O15) say what it does. -/
theorem storeWritesItsTargetOnly : Obligations.StoreWritesItsTargetOnly := by
  refine fun rd e s => ⟨fun hw hwritable => ?word, fun hw hwritable => ?byte⟩
  case word =>
    obtain ⟨t, hwrite, -, -, hread, hframe⟩ := wordWriteIsTwoBytesBigEndian s _ (s.x rd) hwritable
    exact ⟨t, (exec_ofSt rd e s).trans (doSt_of_writeWord hw hwrite), holdsWord_iff.2 hread, hframe⟩
  case byte =>
    obtain ⟨t, hwrite, hbyte, hframe, -⟩ := byteWriteKeepsTheOtherByte s _ (lowByte (s.x rd)) hwritable
    have hmode : (storeTarget s e).2 ≠ 2 := by omega
    rw [← lowByte_eq_ofNat]
    exact ⟨t, (exec_ofSt rd e s).trans (doSt_of_writeByte hmode hwrite), hbyte, hframe⟩

end Sys2Proof.Machine
end

section
/-! SUPPORT. The flags of sums and differences as arithmetic (42_arithmetic_logic.md R180), what the operations of R181 to R187 answer once
their operand is found, and the proofs of the statements O21, O22, O23, O24 and O25. -/

namespace Sys2Proof.Machine

/-! ## Overflow and difference as arithmetic -/

/-- `signOf` is the library's `msb`, in which the library states signed overflow. -/
theorem signOf_eq_msb (w : Word) : signOf w = w.msb := (BitVec.msb_eq_getLsbD_last w).symm

theorem saddOverflow_iff_not_fits16 (a b : Word) : BitVec.saddOverflow a b = true ↔ ¬ fits16 (a.toInt + b.toInt) := by
  simp only [BitVec.saddOverflow, fits16, Bool.or_eq_true, decide_eq_true_eq]
  omega

theorem ssubOverflow_iff_not_fits16 (a b : Word) : BitVec.ssubOverflow a b = true ↔ ¬ fits16 (a.toInt - b.toInt) := by
  simp only [BitVec.ssubOverflow, fits16, Bool.or_eq_true, decide_eq_true_eq]
  omega

/-- V of a sum is the library's signed overflow (R180, D6). -/
theorem flagsAdd_v (a b : Word) : (flagsAdd a b).v = BitVec.saddOverflow a b := by
  simp only [flagsAdd, signOf_eq_msb, BitVec.saddOverflow_eq, bne]

/-- V of a difference is the library's signed overflow (R180, D7). -/
theorem flagsSub_v (a b : Word) : (flagsSub a b).v = BitVec.ssubOverflow a b := by
  simp only [flagsSub, signOf_eq_msb, BitVec.ssubOverflow_eq]
  cases a.msb <;> cases b.msb <;> simp

theorem flagsAdd_v_iff (a b : Word) : (flagsAdd a b).v = true ↔ ¬ fits16 (a.toInt + b.toInt) := by
  rw [flagsAdd_v, saddOverflow_iff_not_fits16]

theorem flagsAdd_c_iff (a b : Word) : (flagsAdd a b).c = true ↔ 65536 ≤ a.toNat + b.toNat := decide_eq_true_iff

theorem flagsSub_v_iff (a b : Word) : (flagsSub a b).v = true ↔ ¬ fits16 (a.toInt - b.toInt) := by
  rw [flagsSub_v, ssubOverflow_iff_not_fits16]

theorem flagsSub_c_iff (a b : Word) : (flagsSub a b).c = true ↔ a.toNat < b.toNat := decide_eq_true_iff

theorem flagsSub_z_iff (a b : Word) : (flagsSub a b).z = true ↔ a = b := by
  rw [flagsSub, zeroOf, beq_iff_eq, BitVec.sub_eq_iff_eq_add, BitVec.zero_add]

/-- The difference modulo 65536 is the signed difference narrowed. -/
theorem sub_eq_ofInt (a b : Word) : a - b = BitVec.ofInt 16 (a.toInt - b.toInt) :=
  BitVec.eq_of_toInt_eq (by rw [BitVec.toInt_sub, BitVec.toInt_ofInt])

/-- The doubled operand is the word whose value is twice the operand's modulo 65536 (R187). -/
theorem eq_doubled_of_toNat {b d : Word} (h : d.toNat = 2 * b.toNat % 65536) : d = doubled b := by
  rw [← BitVec.toNat_inj, doubled, BitVec.toNat_add, h, Nat.two_mul]

/-! ## Instructions whose operand is found -/

/-- Rd written with `r` and then the flags: where S and Z are taken from `r`, they are those of the content of Rd afterwards. -/
theorem resultFlags_setX_withVcsz {s : State} {rd : RegNum} {r : Word} {f : Vcsz} {v c : Prop} (hv : f.v = true ↔ v)
    (hc : f.c = true ↔ c) (hs : f.s = signOf r) (hz : f.z = zeroOf r) :
    resultFlags ((s.setX rd r).withVcsz f) v c ((((s.setX rd r).withVcsz f).x rd).toInt < 0)
      ((((s.setX rd r).withVcsz f).x rd).toNat = 0) := by
  rw [State.x_withVcsz, State.x_setX]
  exact resultFlags_withVcsz hv hc (hs ▸ signOf_iff_neg r) (hz ▸ zeroOf_iff r)

/-- What ADD, SUB, AND, OR, XOR and ADDS do, when the operand is found: Rd, V, C, S and Z written and nothing else. -/
theorem doAlu_completes {result : Word → Word → Word} {flags : Word → Word → Vcsz} {rd : RegNum} {e : Ea} {s : State} {b : Word}
    {v c : Prop} (h : operand s e = .ok b) (hv : (flags (s.x rd) b).v = true ↔ v) (hc : (flags (s.x rd) b).c = true ↔ c)
    (hs : (flags (s.x rd) b).s = signOf (result (s.x rd) b)) (hz : (flags (s.x rd) b).z = zeroOf (result (s.x rd) b)) :
    ∃ t, doAlu result flags rd e s = .next t ∧ t.x rd = result (s.x rd) b ∧
      resultFlags t v c ((t.x rd).toInt < 0) ((t.x rd).toNat = 0) ∧ onlyRegsVcsz [s.reg rd] s t := by
  refine ⟨_, doAlu_ok h, ?_, resultFlags_setX_withVcsz hv hc hs hz, onlyRegsVcsz_setX s rd _ _⟩
  rw [State.x_withVcsz, State.x_setX]

/-- AND, OR and XOR: an operation that works bit by bit gives its bits, and C and V are cleared (R180, D8). -/
theorem doAlu_logic_completes {op : Word → Word → Word} {bit : Bool → Bool → Bool} {rd : RegNum} {e : Ea} {s : State} {b : Word}
    (hop : ∀ x y : Word, ∀ k, (op x y).getLsbD k = bit (x.getLsbD k) (y.getLsbD k)) (h : operand s e = .ok b) :
    ∃ t, doAlu op (fun x y => flagsLogic (op x y)) rd e s = .next t ∧
      (∀ k, (t.x rd).getLsbD k = bit ((s.x rd).getLsbD k) (b.getLsbD k)) ∧
      resultFlags t False False ((t.x rd).toInt < 0) ((t.x rd).toNat = 0) ∧ onlyRegsVcsz [s.reg rd] s t := by
  obtain ⟨t, hrun, hrd, hflags, hframe⟩ :=
    doAlu_completes (result := op) (flags := fun x y => flagsLogic (op x y)) (rd := rd) (v := False) (c := False) h
      Bool.false_eq_true.to_iff Bool.false_eq_true.to_iff rfl rfl
  exact ⟨t, hrun, fun k => hrd ▸ hop (s.x rd) b k, hflags, hframe⟩

/-- CMP of an operand that is found writes the flags of the difference (R183). -/
theorem doCmp_of_ok {rd : RegNum} {e : Ea} {s : State} {b : Word} (h : operand s e = .ok b) :
    doCmp rd e s = .next (s.withVcsz (flagsSub (s.x rd) b)) := by
  rw [doCmp, h, Access.run_ok]

/-! ## The statements -/

/-- Settles O21. -/
theorem addResultAndFlags : Obligations.AddResultAndFlags := by
  intro rd e s b hb
  obtain ⟨t, hrun, hrd, hflags, hframe⟩ :=
    doAlu_completes (result := fun x y => x + y) hb (flagsAdd_v_iff (s.x rd) b) (flagsAdd_c_iff (s.x rd) b) rfl rfl
  exact ⟨t, (exec_ofEa .add rd e s).trans hrun, hrd ▸ BitVec.toNat_add _ _, hflags, hframe⟩

/-- Settles O22. -/
theorem subResultAndFlags : Obligations.SubResultAndFlags := by
  intro rd e s b hb
  obtain ⟨t, hrun, hrd, hflags, hframe⟩ :=
    doAlu_completes (result := fun x y => x - y) hb (flagsSub_v_iff (s.x rd) b) (flagsSub_c_iff (s.x rd) b) rfl rfl
  exact ⟨t, (exec_ofEa .sub rd e s).trans hrun, hrd.trans (sub_eq_ofInt _ _), hflags, hframe⟩

/-- Settles O23: CMP is one write of the flags of the difference. -/
theorem cmpSetsFlagsOnly : Obligations.CmpSetsFlagsOnly := by
  intro rd e s b hb
  refine ⟨_, (exec_ofEa .cmp rd e s).trans (doCmp_of_ok hb), ?_, onlyRegsVcsz_withVcsz s _⟩
  rw [← sub_eq_ofInt]
  exact resultFlags_withVcsz (flagsSub_v_iff _ b) (flagsSub_c_iff _ b) (signOf_iff_neg (s.x rd - b)) (flagsSub_z_iff _ b)

/-- Settles O24: the three operations work bit by bit. -/
theorem logicResultsAndFlags : Obligations.LogicResultsAndFlags := by
  intro rd e s b hb
  rw [exec_ofEa, exec_ofEa, exec_ofEa]
  exact ⟨doAlu_logic_completes (fun _ _ _ => BitVec.getLsbD_and) hb, doAlu_logic_completes (fun _ _ _ => BitVec.getLsbD_or) hb,
    doAlu_logic_completes (fun _ _ _ => BitVec.getLsbD_xor) hb⟩

/-- Settles O25: ADDS is the addition of the doubled operand. -/
theorem addsAddsTheDoubledOperand : Obligations.AddsAddsTheDoubledOperand := by
  intro rd e s b d hb hd
  obtain rfl := eq_doubled_of_toNat hd
  obtain ⟨t, hrun, hrd, hflags, hframe⟩ :=
    doAlu_completes (result := fun x y => x + doubled y) (flags := fun x y => flagsAdd x (doubled y)) hb
      (flagsAdd_v_iff (s.x rd) (doubled b)) (flagsAdd_c_iff (s.x rd) (doubled b)) rfl rfl
  have hsum : (t.x rd).toNat = ((s.x rd).toNat + 2 * b.toNat) % 65536 := by
    rw [hrd, BitVec.toNat_add, hd, Nat.add_mod_mod]
  exact ⟨t, (exec_ofEa .adds rd e s).trans hrun, hsum, hflags, hframe⟩

end Sys2Proof.Machine
end

section
/-! SUPPORT. MUL, DIV, MOD, MULL and DIVL (43_multiply_divide.md R200 to R207): which numbers Rd can have in a pair, when the quotient of
DIVL fits, what each instruction answers once its operand is found, and the proofs of the statements O27, O28, O29, O30, O31 and O32. -/

namespace Sys2Proof.Machine

/-! ## Even and odd register numbers (R201) -/

theorem rdLsb_eq_decide (rd : RegNum) : rd.getLsbD 0 = decide (rd.toNat % 2 = 1) := by
  rw [BitVec.getLsbD, Nat.testBit_zero]

theorem rdLsb_of_even {rd : RegNum} (h : rd.toNat % 2 = 0) : rd.getLsbD 0 = false := by
  rw [rdLsb_eq_decide, decide_eq_false (by omega)]

theorem rdLsb_of_odd {rd : RegNum} (h : rd.toNat % 2 = 1) : rd.getLsbD 0 = true := by
  rw [rdLsb_eq_decide, decide_eq_true h]

/-- MULL with an odd Rd is refused before its operand is looked at (R201). -/
theorem doMull_of_odd {rd : RegNum} (h : rd.toNat % 2 = 1) (e : Ea) (s : State) : doMull rd e s = .refused .oddPair := by
  rw [doMull, if_pos (rdLsb_of_odd h)]

/-- DIVL with an odd Rd is refused before its operand is looked at (R201). -/
theorem doDivl_of_odd {rd : RegNum} (h : rd.toNat % 2 = 1) (e : Ea) (s : State) : doDivl rd e s = .refused .oddPair := by
  rw [doDivl, if_pos (rdLsb_of_odd h)]

/-! ## Products and quotients as numbers -/

/-- The low word of the product is the signed product narrowed (R203). -/
theorem mul_eq_ofInt (a b : Word) : a * b = BitVec.ofInt 16 (a.toInt * b.toInt) :=
  BitVec.eq_of_toInt_eq (by rw [BitVec.toInt_mul, BitVec.toInt_ofInt])

/-- A number below 2^32 is put together again from its two words (R200, D13). -/
theorem toNat_words_of_lt {n : Nat} (h : n < 65536 * 65536) :
    (BitVec.ofNat 16 (n / 65536)).toNat * 65536 + (BitVec.ofNat 16 n).toNat = n := by
  rw [BitVec.toNat_ofNat, BitVec.toNat_ofNat]
  omega

/-- The quotient of DIVL fits in a word exactly when the high word of the pair is below the operand (R207). -/
theorem pairValue_div_lt_iff {s : State} {rd : RegNum} {b : Word} (hb : b.toNat ≠ 0) :
    s.pairValue rd / b.toNat < 65536 ↔ (s.x (highOf rd)).toNat < b.toNat := by
  have hlow := (s.x rd).isLt
  rw [Nat.div_lt_iff_lt_mul (Nat.pos_of_ne_zero hb), State.pairValue]
  omega

/-! ## Instructions whose operand is found -/

/-- DIV by an operand that is not zero is an operation of two words like those of R181 to R187 (R205). -/
theorem doDiv_eq_doAlu {rd : RegNum} {e : Ea} {s : State} {b : Word} (h : operand s e = .ok b) (hb : b ≠ 0#16) :
    doDiv rd e s = doAlu (fun x y => x / y) (fun x y => flagsMulDiv (x / y)) rd e s := by
  rw [doAlu_ok h, doDiv, h, Access.run_ok, if_neg hb]

/-- MOD by an operand that is not zero is an operation of two words like those of R181 to R187 (R206). -/
theorem doMod_eq_doAlu {rd : RegNum} {e : Ea} {s : State} {b : Word} (h : operand s e = .ok b) (hb : b ≠ 0#16) :
    doMod rd e s = doAlu (fun x y => x % y) (fun x y => flagsMulDiv (x % y)) rd e s := by
  rw [doAlu_ok h, doMod, h, Access.run_ok, if_neg hb]

/-- MULL of an operand that is found writes the two words of the product (R204). -/
theorem doMull_of_ok {rd : RegNum} {e : Ea} {s : State} {b : Word} (hrd : rd.toNat % 2 = 0) (h : operand s e = .ok b) :
    doMull rd e s = .next (s.setPair rd (BitVec.ofNat 16 ((s.x rd).toNat * b.toNat / 65536))
      (BitVec.ofNat 16 ((s.x rd).toNat * b.toNat)) (flagsMulDiv (BitVec.ofNat 16 ((s.x rd).toNat * b.toNat)))) := by
  rw [doMull, rdLsb_of_even hrd, if_neg Bool.false_ne_true, h, Access.run_ok]

/-- DIVL by an operand that is not zero writes quotient and remainder where the quotient fits, and free values where it does not (R207,
D14). -/
theorem doDivl_of_ok {rd : RegNum} {e : Ea} {s : State} {b : Word} (hrd : rd.toNat % 2 = 0) (h : operand s e = .ok b)
    (hb : b.toNat ≠ 0) :
    doDivl rd e s = .next (if (s.x (highOf rd)).toNat < b.toNat then
        s.setPair rd (BitVec.ofNat 16 (s.pairValue rd % b.toNat)) (BitVec.ofNat 16 (s.pairValue rd / b.toNat))
          (flagsMulDiv (BitVec.ofNat 16 (s.pairValue rd / b.toNat)))
      else s.divlFree rd) := by
  have hne : b ≠ 0#16 := fun h0 => hb (congrArg BitVec.toNat h0)
  rw [doDivl, rdLsb_of_even hrd, if_neg Bool.false_ne_true, h, Access.run_ok, apply_ite Host.Outcome.next]
  simp only [if_neg hne, pairValue_div_lt_iff hb]

/-- The zero divide of DIV, MOD and DIVL writes nothing and raises the exception (R202, D40). -/
theorem doEa_of_zero {o : EaOp} {rd : RegNum} {e : Ea} {s : State} (ho : o = .div ∨ o = .mod ∨ (o = .divl ∧ rd.toNat % 2 = 0))
    (h : operand s e = .ok 0#16) : doEa o rd e s = raise .zeroDivide s := by
  rcases ho with rfl | rfl | ⟨rfl, hrd⟩
  · rw [doEa, doDiv, h, Access.run_ok, if_pos rfl]
  · rw [doEa, doMod, h, Access.run_ok, if_pos rfl]
  · rw [doEa, doDivl, rdLsb_of_even hrd, if_neg Bool.false_ne_true, h, Access.run_ok]
    exact if_pos rfl

/-! ## What they leave -/

/-- MUL, DIV and MOD: Rd is the result, S and Z are those of Rd, C and V are cleared, and nothing else changes (R200, D10). -/
theorem doAlu_mulDiv_completes {op : Word → Word → Word} {rd : RegNum} {e : Ea} {s : State} {b : Word} (h : operand s e = .ok b) :
    ∃ t, doAlu op (fun x y => flagsMulDiv (op x y)) rd e s = .next t ∧ t.x rd = op (s.x rd) b ∧
      resultFlags t False False ((t.x rd).toInt < 0) ((t.x rd).toNat = 0) ∧ onlyRegsVcsz [s.reg rd] s t :=
  doAlu_completes h Bool.false_eq_true.to_iff Bool.false_eq_true.to_iff rfl rfl

/-- The pair written with the flags of its low word: S and Z are those of Rd, C and V are cleared (R200, D10). -/
theorem resultFlags_setPair {s : State} {rd : RegNum} (hrd : rd.toNat % 2 = 0) (hi lo : Word) :
    resultFlags (s.setPair rd hi lo (flagsMulDiv lo)) False False (((s.setPair rd hi lo (flagsMulDiv lo)).x rd).toInt < 0)
      (((s.setPair rd hi lo (flagsMulDiv lo)).x rd).toNat = 0) := by
  rw [State.x_setPair_low s rd (rdLsb_of_even hrd)]
  exact resultFlags_withVcsz Bool.false_eq_true.to_iff Bool.false_eq_true.to_iff (signOf_iff_neg lo) (zeroOf_iff lo)

/-- DIVL without room: the pair, the result flags and the counter of free values change, and nothing else (R207, D14). -/
theorem divlFree_frame (s : State) (rd : RegNum) :
    sameRegsBut [s.reg rd, s.reg (highOf rd)] s (s.divlFree rd) ∧ sameMode s (s.divlFree rd) ∧ sameBytes s (s.divlFree rd) ∧
      samePlatform s (s.divlFree rd) := by
  obtain ⟨hregs, hmode, hbytes, hplatform, -⟩ := onlyRegsVcsz_setPair s rd (Config.freeWord (s.free + 1)) (Config.freeWord s.free)
    { v := Config.freeBit s.free, c := Config.freeBit (s.free + 1), s := Config.freeBit (s.free + 2),
      z := Config.freeBit (s.free + 3) }
  refine ⟨fun x hx => ?_, hmode, hbytes, hplatform⟩
  rw [State.divlFree, State.get_withFree]
  exact hregs x hx

/-! ## The statements -/

/-- Settles O27: the low word of a product does not depend on the sign reading of its factors. -/
theorem mulGivesTheLowWord : Obligations.MulGivesTheLowWord := by
  intro rd e s b hb
  obtain ⟨t, hrun, hrd, hflags, hframe⟩ := doAlu_mulDiv_completes (op := fun x y => x * y) (rd := rd) hb
  exact ⟨t, (exec_ofEa .mul rd e s).trans hrun, hrd ▸ BitVec.toNat_mul _ _, hrd.trans (mul_eq_ofInt _ _), hflags, hframe⟩

/-- Settles O28. -/
theorem divAndModGiveQuotientAndRemainder : Obligations.DivAndModGiveQuotientAndRemainder := by
  intro rd e s b hb hne
  have hb0 : b ≠ 0#16 := fun h0 => hne (congrArg BitVec.toNat h0)
  refine ⟨?div, ?mod⟩
  case div =>
    obtain ⟨t, hrun, hrd, hflags, hframe⟩ := doAlu_mulDiv_completes (op := fun x y => x / y) (rd := rd) hb
    exact ⟨t, (exec_ofEa .div rd e s).trans ((doDiv_eq_doAlu hb hb0).trans hrun), hrd ▸ BitVec.toNat_udiv, hflags, hframe⟩
  case mod =>
    obtain ⟨t, hrun, hrd, hflags, hframe⟩ := doAlu_mulDiv_completes (op := fun x y => x % y) (rd := rd) hb
    exact ⟨t, (exec_ofEa .mod rd e s).trans ((doMod_eq_doAlu hb hb0).trans hrun), hrd ▸ BitVec.toNat_umod, hflags, hframe⟩

/-- Settles O29: a product of two words is below 2^32, so the pair holds the whole of it. -/
theorem mullGivesTheWholeProduct : Obligations.MullGivesTheWholeProduct := by
  refine fun rd e s => ⟨fun hrd b hb => ?even, fun hrd => (exec_ofEa .mull rd e s).trans (doMull_of_odd hrd e s)⟩
  have hproduct : (s.x rd).toNat * b.toNat < 65536 * 65536 := Nat.mul_lt_mul'' (s.x rd).isLt b.isLt
  refine ⟨_, (exec_ofEa .mull rd e s).trans (doMull_of_ok hrd hb), ?_, resultFlags_setPair hrd _ _, onlyRegsVcsz_setPair s rd _ _ _⟩
  rw [← highOf, State.x_setPair_high, State.x_setPair_low s rd (rdLsb_of_even hrd)]
  exact toNat_words_of_lt hproduct

/-- Settles O30: where the high word is below the operand, quotient and remainder are numbers of 16 bits. -/
theorem divlGivesQuotientAndRemainder : Obligations.DivlGivesQuotientAndRemainder := by
  refine fun rd e s => ⟨fun hrd b hb hlt => ?even, fun hrd => (exec_ofEa .divl rd e s).trans (doDivl_of_odd hrd e s)⟩
  have hne : b.toNat ≠ 0 := Nat.ne_zero_of_lt hlt
  have hquotient : s.pairValue rd / b.toNat < 2 ^ 16 := (pairValue_div_lt_iff hne).2 hlt
  have hremainder : s.pairValue rd % b.toNat < 2 ^ 16 := (Nat.mod_lt _ (Nat.pos_of_ne_zero hne)).trans b.isLt
  have hrun := (exec_ofEa .divl rd e s).trans (doDivl_of_ok hrd hb hne)
  rw [highOf, if_pos hlt] at hrun
  refine ⟨_, hrun, ?quotient, ?remainder, resultFlags_setPair hrd _ _, onlyRegsVcsz_setPair s rd _ _ _⟩
  case quotient =>
    rw [State.x_setPair_low s rd (rdLsb_of_even hrd), BitVec.toNat_ofNat, Nat.mod_eq_of_lt hquotient]
    rfl
  case remainder =>
    rw [← highOf, State.x_setPair_high, BitVec.toNat_ofNat, Nat.mod_eq_of_lt hremainder]
    rfl

/-- Settles O31: the result is drawn, and the draw writes the pair, the result flags and its own counter. -/
theorem divlWithoutRoomStillCompletes : Obligations.DivlWithoutRoomStillCompletes := by
  intro rd e s b hrd hb hne hle
  have hrun := (exec_ofEa .divl rd e s).trans (doDivl_of_ok hrd hb hne)
  rw [highOf, if_neg (Nat.not_lt.2 hle)] at hrun
  exact ⟨s.divlFree rd, hrun, divlFree_frame s rd⟩

/-- Settles O32: the zero divide is the exception with the number 12, and its trap entry can be done. -/
theorem zeroDivideTraps : Obligations.ZeroDivideTraps := by
  intro o rd e s ho hb hready
  exact trap_of_eq_raise (ex := .zeroDivide) ((exec_ofEa o rd e s).trans (doEa_of_zero ho hb)) hready

end Sys2Proof.Machine
end

section
/-! SUPPORT. SHLA, SHLL, SHRA and SHRL (44_shift.md R220 to R224): shifts as products and quotients by a power of two, the last bit shifted
out, what a shift answers once its operand is found, and the proofs of the statements O33 and O34. -/

namespace Sys2Proof.Machine

/-! ## Shifts as numbers -/

/-- The right shift with copies of the sign divides the signed value and rounds down (R223). -/
theorem toInt_sshiftRight_eq_div (a : Word) (n : Nat) : (a.sshiftRight n).toInt = a.toInt / 2 ^ n := by
  rw [BitVec.toInt_sshiftRight, Int.shiftRight_eq_div_pow, Int.natCast_pow]
  rfl

/-- The left shift multiplies modulo 65536 (R221, R222). -/
theorem toNat_shiftLeft_eq_mul_mod (a : Word) (n : Nat) : (a <<< n).toNat = a.toNat * 2 ^ n % 65536 := by
  rw [BitVec.toNat_shiftLeft, Nat.shiftLeft_eq]

/-- The right shift with zeros divides the unsigned value (R224). -/
theorem toNat_ushiftRight_eq_div (a : Word) (n : Nat) : (a >>> n).toNat = a.toNat / 2 ^ n := by
  rw [BitVec.toNat_ushiftRight, Nat.shiftRight_eq_div_pow]

theorem getLsbD_iff_div_mod (a : Word) (k : Nat) : a.getLsbD k = true ↔ a.toNat / 2 ^ k % 2 = 1 := by
  rw [BitVec.getLsbD, Nat.testBit_eq_decide_div_mod_eq, decide_eq_true_eq]

theorem carryLeft_iff (a : Word) (n : Nat) : carryLeft a n = true ↔ n ≠ 0 ∧ a.toNat / 2 ^ (16 - n) % 2 = 1 := by
  rw [carryLeft, Bool.if_false_left, Bool.and_eq_true, getLsbD_iff_div_mod, Bool.not_eq_true', decide_eq_false_iff_not]

theorem carryRight_iff (a : Word) (n : Nat) : carryRight a n = true ↔ n ≠ 0 ∧ a.toNat / 2 ^ (n - 1) % 2 = 1 := by
  rw [carryRight, Bool.if_false_left, Bool.and_eq_true, getLsbD_iff_div_mod, Bool.not_eq_true', decide_eq_false_iff_not]

/-! ## Shifts whose operand is found -/

/-- A shift by at most 15 is an operation of two words like those of R181 to R187 (R220). -/
theorem doShift_eq_doAlu {result : Word → Nat → Word} {out : Word → Nat → Bool} {rd : RegNum} {e : Ea} {s : State} {b : Word}
    (h : operand s e = .ok b) (hb : b.toNat < 16) :
    doShift result out rd e s =
      doAlu (fun x y => result x y.toNat) (fun x y => flagsShift (result x y.toNat) (out x y.toNat)) rd e s := by
  rw [doAlu_ok h, doShift, h, Access.run_ok, if_pos hb]

/-- A shift by at most 15: Rd is the result, C the last bit shifted out, V is cleared, S and Z are those of Rd, and nothing else changes
(R220, D16). -/
theorem doShift_completes {result : Word → Nat → Word} {out : Word → Nat → Bool} {rd : RegNum} {e : Ea} {s : State} {b : Word}
    {c : Prop} (h : operand s e = .ok b) (hb : b.toNat < 16) (hc : out (s.x rd) b.toNat = true ↔ c) :
    ∃ t, doShift result out rd e s = .next t ∧ t.x rd = result (s.x rd) b.toNat ∧
      resultFlags t False c ((t.x rd).toInt < 0) ((t.x rd).toNat = 0) ∧ onlyRegsVcsz [s.reg rd] s t := by
  rw [doShift_eq_doAlu h hb]
  exact doAlu_completes h Bool.false_eq_true.to_iff hc rfl rfl

/-- What a shift by 16 or more leaves: Rd, C and V drawn, S and Z those of Rd (R220, U8, log 13). -/
def State.shiftFree (s : State) (rd : RegNum) : State :=
  ((s.setX rd (Config.freeWord s.free)).withVcsz
    (flagsShiftFree (Config.freeWord s.free) (Config.freeBit s.free) (Config.freeBit (s.free + 1)))).withFree (s.free + 2)

/-- A shift by 16 or more completes, and all four shifts alike (R220, U8, log 13). -/
theorem doShift_of_sixteen_le {result : Word → Nat → Word} {out : Word → Nat → Bool} {rd : RegNum} {e : Ea} {s : State} {b : Word}
    (h : operand s e = .ok b) (hb : 16 ≤ b.toNat) : doShift result out rd e s = .next (s.shiftFree rd) := by
  rw [doShift, h, Access.run_ok, if_neg (Nat.not_lt.2 hb), State.shiftFree]

/-- Each of the four instructions is a shift, told apart by its result and its last bit out. -/
theorem doEa_eq_doShift {o : EaOp} (ho : o = .shla ∨ o = .shll ∨ o = .shra ∨ o = .shrl) :
    ∃ result out, ∀ rd e s, doEa o rd e s = doShift result out rd e s := by
  rcases ho with rfl | rfl | rfl | rfl
  · exact ⟨_, carryLeft, fun _ _ _ => rfl⟩
  · exact ⟨_, carryLeft, fun _ _ _ => rfl⟩
  · exact ⟨_, carryRight, fun _ _ _ => rfl⟩
  · exact ⟨_, carryRight, fun _ _ _ => rfl⟩

/-- The two left shifts are one and the same shift (R222, R220). -/
theorem doEa_eq_shiftLeft {o : EaOp} (ho : o = .shla ∨ o = .shll) (rd : RegNum) (e : Ea) (s : State) :
    doEa o rd e s = doShift (fun a n => a <<< n) carryLeft rd e s := by
  rcases ho with rfl | rfl <;> rfl

/-! ## What they leave -/

@[simp] theorem State.x_withFree (s : State) (n : Nat) (r : RegNum) : (s.withFree n).x r = s.x r :=
  State.get_withFree s n (s.reg r)

/-- S and Z after a shift by 16 or more are those of Rd (R220, U8). -/
theorem shiftFree_flags (s : State) (rd : RegNum) :
    ((s.shiftFree rd).flag.s = true ↔ ((s.shiftFree rd).x rd).toInt < 0) ∧
      ((s.shiftFree rd).flag.z = true ↔ ((s.shiftFree rd).x rd).toNat = 0) := by
  obtain ⟨-, -, hs, hz⟩ := resultFlags_setX_withVcsz (s := s) (rd := rd) (r := Config.freeWord s.free)
    (f := flagsShiftFree (Config.freeWord s.free) (Config.freeBit s.free) (Config.freeBit (s.free + 1))) Iff.rfl Iff.rfl rfl rfl
  rw [State.shiftFree, State.x_withFree, State.flag_withFree]
  exact ⟨hs, hz⟩

/-- A shift by 16 or more changes Rd, the result flags and the counter of free values, and nothing else (R220, U8). -/
theorem shiftFree_frame (s : State) (rd : RegNum) :
    sameRegsBut [s.reg rd] s (s.shiftFree rd) ∧ sameMode s (s.shiftFree rd) ∧ sameBytes s (s.shiftFree rd) ∧
      samePlatform s (s.shiftFree rd) := by
  obtain ⟨hregs, hmode, hbytes, hplatform, -⟩ := onlyRegsVcsz_setX s rd (Config.freeWord s.free)
    (flagsShiftFree (Config.freeWord s.free) (Config.freeBit s.free) (Config.freeBit (s.free + 1)))
  refine ⟨fun x hx => ?_, hmode, hbytes, hplatform⟩
  rw [State.shiftFree, State.get_withFree]
  exact hregs x hx

/-! ## The statements -/

/-- Settles O33: each shift is a product or a quotient by a power of two. -/
theorem shiftResultsUpToFifteen : Obligations.ShiftResultsUpToFifteen := by
  rintro rd e s b _ hb rfl hn
  have hlt : b.toNat < 16 := Nat.lt_succ_of_le hn
  refine ⟨fun o ho => ?left, ?signed, ?unsigned⟩
  case left =>
    obtain ⟨t, hrun, hrd, hflags, hframe⟩ :=
      doShift_completes (result := fun a n => a <<< n) hb hlt (carryLeft_iff (s.x rd) b.toNat)
    have hexec := (exec_ofEa o rd e s).trans ((doEa_eq_shiftLeft ho rd e s).trans hrun)
    exact ⟨t, hexec, hrd ▸ toNat_shiftLeft_eq_mul_mod _ _, hflags, hframe⟩
  case signed =>
    obtain ⟨t, hrun, hrd, hflags, hframe⟩ :=
      doShift_completes (result := fun a n => a.sshiftRight n) hb hlt (carryRight_iff (s.x rd) b.toNat)
    exact ⟨t, (exec_ofEa .shra rd e s).trans hrun, hrd ▸ toInt_sshiftRight_eq_div _ _, hflags, hframe⟩
  case unsigned =>
    obtain ⟨t, hrun, hrd, hflags, hframe⟩ :=
      doShift_completes (result := fun a n => a >>> n) hb hlt (carryRight_iff (s.x rd) b.toNat)
    exact ⟨t, (exec_ofEa .shrl rd e s).trans hrun, hrd ▸ toNat_ushiftRight_eq_div _ _, hflags, hframe⟩

/-- Settles O34: the result is drawn, and S and Z are taken from what was drawn. -/
theorem shiftBySixteenOrMoreStillCompletes : Obligations.ShiftBySixteenOrMoreStillCompletes := by
  intro o rd e s b ho hb hle
  obtain ⟨result, out, hshift⟩ := doEa_eq_doShift ho
  have hrun := (exec_ofEa o rd e s).trans ((hshift rd e s).trans (doShift_of_sixteen_le hb hle))
  obtain ⟨hsign, hzero⟩ := shiftFree_flags s rd
  exact ⟨s.shiftFree rd, hrun, hsign, hzero, shiftFree_frame s rd⟩

end Sys2Proof.Machine
end

section
/-! SUPPORT. The jump row of the opcode map, the conditions of R240 as flags and as comparisons, what a jump and a CALL leave
(45_jump_call.md R240 to R258), and the proofs of the statements O6, O26, O35 and O36. -/

namespace Sys2Proof

/-! ## The row A0h of the opcode map (R121, R242) -/

theorem First.map_map {α β γ : Type} (g : β → γ) (f : α → β) (x : First α) : (x.map f).map g = x.map (fun a => g (f a)) := by
  cases x <;> rfl

/-- A number that has the numerals of the row A0h is its first word (R111, R113). -/
theorem ofNat_eq_firstWord_jump {n : Nat} {m : BitVec 3} {rd rx : RegNum}
    (hn : n = 0xA000 + 256 * m.toNat + 16 * rd.toNat + rx.toNat) : BitVec.ofNat 16 n = firstWord 20 m rd rx := by
  have hrow : (20 : BitVec 5).toNat = 20 := rfl
  rw [firstWord_eq_mapWord, Machine.mapWord, hrow, hn]
  congr 1
  omega

/-- A first word of the row with the code of a condition is the jump with that condition, in the mode of its column (R121, R242). -/
theorem decodeFirst_jump {n : Nat} {m : BitVec 3} {cc : Cond} {rx : RegNum}
    (hn : n = 0xA000 + 256 * m.toNat + 16 * cc.code.toNat + rx.toNat) :
    decodeFirst (BitVec.ofNat 16 n) = (decodeJumpEa m rx).map (Instr.ofJump cc) := by
  rw [ofNat_eq_firstWord_jump hn, decodeFirst, decodeView_jump, decodeJump_code, First.map_map]
  rfl

/-- In a column that is not blank the condition field Dh is refused, whatever the Rx field (R121, D27). -/
theorem decodeFirst_jump_D {n : Nat} {m : BitVec 3} {rx : RegNum} (hm : (decodeJumpEa m 0).isUndefined = false)
    (hn : n = 0xA000 + 256 * m.toNat + 16 * 13 + rx.toNat) :
    decodeFirst (BitVec.ofNat 16 n) = .reserved .jumpConditionD := by
  have hdef : decodeJumpEa m rx ≠ .undefined := fun h => by
    rw [← First.isUndefined_iff, isUndefined_decodeJumpEa, hm] at h
    exact nomatch h
  have hcode : Cond.ofCode 13#4 = none := rfl
  rw [ofNat_eq_firstWord_jump (rd := 13#4) hn, decodeFirst, decodeView_jump, decodeJump, hcode]
  cases h : decodeJumpEa m rx with
  | undefined => exact absurd h hdef
  | reserved | one | two => rfl

end Sys2Proof

namespace Sys2Proof.Machine

/-! ## The conditions (R240) -/

/-- The truth value of a condition is its entry in the column `cond` of R240. -/
theorem condHolds_iff (cc : Cond) (f : Flag) : condHolds cc f = true ↔ condTable cc f := by
  cases cc with
  | z | c | m | o => exact Iff.rfl
  | nz | nc | nm | no => exact (Bool.not_eq_true' _).to_iff
  | always => exact iff_of_true rfl trivial
  | gt | ge | le | lt | hi | ls => simp [condHolds, condTable]

/-- The flags are those of a comparison of `a` with `b`: Z is equality, C the unsigned order and S ≠ V the signed order (R241). -/
def ComparisonFlags (f : Flag) (a b : Word) : Prop :=
  (f.z = true ↔ a = b) ∧ (f.c = true ↔ a.toNat < b.toNat) ∧ (f.s ≠ f.v ↔ a.toInt < b.toInt)

/-- The sign of a difference is wrong exactly when the difference overflows, so S and V together give the signed order (R180, D7). -/
theorem flagsSub_s_ne_v_iff (a b : Word) : (flagsSub a b).s ≠ (flagsSub a b).v ↔ a.toInt < b.toInt := by
  have hs : (flagsSub a b).s = true ↔ (a.toInt - b.toInt).bmod (2 ^ 16) < 0 := by
    rw [← BitVec.toInt_sub]
    exact signOf_iff_neg (a - b)
  have ha := BitVec.le_toInt a; have ha' := BitVec.toInt_lt (x := a)
  have hb := BitVec.le_toInt b; have hb' := BitVec.toInt_lt (x := b)
  rw [Ne, Bool.eq_iff_iff, hs, flagsSub_v_iff, fits16, Int.bmod_def]
  split <;> omega

theorem comparisonFlags_flagsSub (s : State) (a b : Word) : ComparisonFlags (s.withVcsz (flagsSub a b)).flag a b :=
  ⟨flagsSub_z_iff a b, flagsSub_c_iff a b, flagsSub_s_ne_v_iff a b⟩

/-- CMP and SUB of an operand that is found leave the flags of the comparison of Rd with it (R182, R183). -/
theorem comparisonFlags_of_cmp_or_sub {o : EaOp} {rd : RegNum} {e : Ea} {s t : State} {b : Word} (ho : o = .cmp ∨ o = .sub)
    (hb : operand s e = .ok b) (h : exec (.ofEa o rd e) s = .next t) : ComparisonFlags t.flag (s.x rd) b := by
  rw [exec_ofEa] at h
  rcases ho with rfl | rfl
  · obtain rfl := Host.Outcome.next.inj ((doCmp_of_ok hb).symm.trans h)
    exact comparisonFlags_flagsSub s _ b
  · obtain rfl := Host.Outcome.next.inj ((doAlu_ok hb).symm.trans h)
    exact comparisonFlags_flagsSub (s.setX rd _) _ b

/-- After a comparison Z alone, and with S and V, decides the signed relations (R241). -/
theorem condTable_signed {f : Flag} {a b : Word} (h : ComparisonFlags f a b) :
    (condTable .gt f ↔ b.toInt < a.toInt) ∧ (condTable .ge f ↔ b.toInt ≤ a.toInt) ∧
      (condTable .le f ↔ a.toInt ≤ b.toInt) ∧ (condTable .lt f ↔ a.toInt < b.toInt) := by
  obtain ⟨hz, -, hlt⟩ := h
  rw [← BitVec.toInt_inj] at hz
  have hge : f.s = f.v ↔ ¬ a.toInt < b.toInt := by rw [← hlt, not_not]
  refine ⟨?gt, ?ge, ?le, hlt⟩
  all_goals
    simp only [condTable, ← Bool.not_eq_true, hz, hge, hlt]
    omega

/-- After a comparison Z and C decide the unsigned relations (R241). -/
theorem condTable_unsigned {f : Flag} {a b : Word} (h : ComparisonFlags f a b) :
    (condTable .hi f ↔ b.toNat < a.toNat) ∧ (condTable .nc f ↔ b.toNat ≤ a.toNat) ∧
      (condTable .ls f ↔ a.toNat ≤ b.toNat) ∧ (condTable .c f ↔ a.toNat < b.toNat) := by
  obtain ⟨hz, hc, -⟩ := h
  rw [← BitVec.toNat_inj] at hz
  refine ⟨?hi, ?nc, ?ls, hc⟩
  all_goals
    simp only [condTable, ← Bool.not_eq_true, hz, hc]
    omega

/-! ## What a jump leaves (R242) -/

theorem doJump_of_condTable {cc : Cond} {e : JumpEa} {s : State} (h : condTable cc s.flag) :
    doJump cc e s = .next (s.withPc (jumpTarget s e)) := by
  rw [doJump, if_pos ((condHolds_iff cc s.flag).2 h)]

theorem doJump_of_not_condTable {cc : Cond} {e : JumpEa} {s : State} (h : ¬ condTable cc s.flag) :
    doJump cc e s = .next s := by
  rw [doJump, if_neg (mt (condHolds_iff cc s.flag).1 h)]

/-- A jump completes with PC at its target or where it was, and changes nothing else (R242, D36). -/
theorem exec_ofJump_completes (cc : Cond) (e : JumpEa) (s : State) :
    ∃ t, exec (.ofJump cc e) s = .next t ∧ onlyRegs [.pc] s t ∧
      (condTable cc s.flag → t.pc = jumpTarget s e) ∧ (¬ condTable cc s.flag → t.pc = s.pc) := by
  rw [exec_ofJump]
  by_cases h : condTable cc s.flag
  · exact ⟨_, doJump_of_condTable h, onlyRegs_withPc s _, fun _ => rfl, fun hn => absurd h hn⟩
  · exact ⟨s, doJump_of_not_condTable h, onlyRegs_refl _ s, fun hc => absurd hc h, fun _ => rfl⟩

/-! ## What a CALL leaves (R258) -/

/-- A change of memory followed by a change of registers. -/
theorem onlyRegsBytes.trans_onlyRegs {xs ys : List Reg} {as : List Word} {s t u : State} (h : onlyRegsBytes xs as s t)
    (h' : onlyRegs ys t u) : onlyRegsBytes (xs ++ ys) as s u := by
  obtain ⟨hregs, hflag, hbytes, ⟨hh, hp, hl, hu, ht, ha, hq⟩, hfree⟩ := h
  obtain ⟨hregs', hflag', hbytes', ⟨hh', hp', hl', hu', ht', ha', hq'⟩, hfree'⟩ := h'
  refine ⟨fun x hx => ?_, hflag'.trans hflag, fun k hk => (hbytes' k).trans (hbytes k hk),
    ⟨hh'.trans hh, hp'.trans hp, hl'.trans hl, hu'.trans hu, ht'.trans ht, ha'.trans ha, hq'.trans hq⟩, hfree'.trans hfree⟩
  obtain ⟨hxs, hys⟩ := not_or.1 (mt List.mem_append.2 hx)
  exact (hregs' x hys).trans (hregs x hxs)

/-- A push at an address that may be written: SP is there, memory holds the word there, and nothing else changes (R280, D3). -/
theorem push_completes {s : State} (w : Word) (h : writableWord s (s.x spNum - 2#16)) :
    ∃ t, s.push w = .ok t ∧ t.x spNum = s.x spNum - 2#16 ∧ holdsWord t (s.x spNum - 2#16) w ∧
      onlyRegsBytes [s.reg spNum] [s.x spNum - 2#16, s.x spNum - 2#16 + 1#16] s t := by
  refine ⟨_, push_of_writable h, State.x_setX _ _ _, holdsWord_iff.2 ?_,
    (onlyRegsBytes_writeWord s _ w).trans_onlyRegs (onlyRegs_setX (s.withMem (s.mem.writeWord _ w)) spNum _)⟩
  rw [State.mem_setX, State.mem_withMem, Memory.readWord_writeWord]

/-- SP is not PC, so a write of PC leaves it. -/
@[simp] theorem State.x_sp_withPc (s : State) (w : Word) : (s.withPc w).x spNum = s.x spNum := by
  rw [State.x_sp, State.x_sp, State.flag_withPc, State.ssp_withPc, State.usp_withPc]

/-! ## The statements -/

/-- Settles O6: the codes of the table are the codes of the conditions, and the row decodes by code and column. -/
theorem jumpRowAndConditionCodes : Obligations.JumpRowAndConditionCodes := by
  refine ⟨fun p hp rx w2 => ?row, fun rx => ?refused, fun cc e s => ?meaning⟩
  case row =>
    have hcode : p.1 = p.2.code.toNat := by
      revert p
      decide
    rw [hcode]
    exact ⟨⟨_, decodeFirst_jump (m := 0) (rx := 0) rfl, rfl⟩, ⟨_, decodeFirst_jump (m := 1) rfl, rfl⟩,
      decodeFirst_jump (m := 6) rfl⟩
  case refused =>
    exact ⟨decodeFirst_jump_D (m := 0) rfl rfl, decodeFirst_jump_D (m := 1) rfl rfl, decodeFirst_jump_D (m := 6) rfl rfl⟩
  case meaning =>
    rw [exec_ofJump]
    exact ⟨doJump_of_condTable, doJump_of_not_condTable⟩

/-- Settles O26: CMP and SUB leave the flags of a comparison, on which the columns of R240 are the ten relations. -/
theorem compareThenJumpDecidesTheOrder : Obligations.CompareThenJumpDecidesTheOrder := by
  intro o rd e s t b ho hb h
  have hflags := comparisonFlags_of_cmp_or_sub ho hb h
  obtain ⟨hgt, hge, hle, hlt⟩ := condTable_signed hflags
  obtain ⟨hhi, hnc, hls, hc⟩ := condTable_unsigned hflags
  have hz : condTable .z t.flag ↔ s.x rd = b := hflags.1
  have hnz : condTable .nz t.flag ↔ s.x rd ≠ b := by rw [condTable, ← Bool.not_eq_true, hflags.1]
  simp only [condHolds_iff]
  exact ⟨hgt, hge, hz, hnz, hle, hlt, hhi, hnc, hls, hc⟩

/-- Settles O35: one statement about every target, and the sum of words as a sum of numbers. -/
theorem jumpsChangeOnlyPc : Obligations.JumpsChangeOnlyPc := by
  intro cc dsp rx s
  rw [← BitVec.add_def]
  exact ⟨exec_ofJump_completes cc (.direct dsp) s, exec_ofJump_completes cc (.indexed dsp rx) s,
    exec_ofJump_completes cc (.indirect rx) s⟩

/-- Settles O36: CALL is a push and a write of PC. -/
theorem callPushesTheReturnAddress : Obligations.CallPushesTheReturnAddress := by
  intro e s hw
  obtain ⟨t, hpush, hsp, hword, hframe⟩ := push_completes s.pc hw
  have hrun : exec (.ofCall e) s = .next (t.withPc (jumpTarget s e)) := by
    rw [exec_ofCall, doCall, hpush, Access.run_ok]
  exact ⟨_, hrun, rfl, (State.x_sp_withPc t _).trans hsp, hword, hframe.trans_onlyRegs (onlyRegs_withPc t _)⟩

end Sys2Proof.Machine
end

section
/-! SUPPORT. The I/O space and IN and OUT (20_memory.md R71, R78; 46_io.md R270, R271): which port and width an access has, what a read
delivers of an answer of the environment, what a write sends and leaves in the limit registers, and the proofs of the statements O37 and
O38. -/

namespace Sys2Proof.Machine

/-! ## The port and the width of an access (R71, R161) -/

theorem toNat_portOf (a : Word) : (portOf a).toNat = a.toNat % 256 := by
  rw [portOf, toNat_field, pow_zero, Nat.div_one]
  rfl

/-- A number that is the low 8 bits of an I/O address is the port the address selects (R71). -/
theorem eq_portOf_of_toNat {port : Byte} {a : Word} (h : port.toNat = a.toNat % 256) : port = portOf a :=
  BitVec.eq_of_toNat_eq (h.trans (toNat_portOf a).symm)

/-- An I/O access moves a word or a byte (R161). -/
theorem ioPort_width (s : State) (e : PortEa) : (ioPort s e).2 = 2 ∨ (ioPort s e).2 = 1 := by
  cases e with
  | direct | indirect => exact .inl rfl
  | byteIndirect => exact .inr rfl

/-- The ports whose even byte the model takes as 00h are those of R78 less the three of R79. -/
theorem upperByteZero_iff (port : Byte) : upperByteZero port = true ↔ port.toNat ∈ byteRegisterPorts := by
  revert port
  decide

theorem lsb_eq_false_of_even {port : Byte} (h : port.toNat % 2 = 0) : port.getLsbD 0 = false := by
  rw [BitVec.getLsbD, Nat.testBit_zero, h]
  rfl

theorem toNat_setWidth_lowByte (w : Word) : ((lowByte w).setWidth 16).toNat = w.toNat % 256 := by
  rw [BitVec.toNat_setWidth, toNat_lowByte]
  omega

@[simp] theorem State.get_record (s : State) (ev : IoEvent) (x : Reg) : (s.record ev).get x = s.get x := State.get_withIoTrace _ _ x

/-! ## Reads (R270, R350) -/

theorem State.answer_of_nil {s : State} (h : s.ioAnswers = []) :
    s.answer = (Config.freeWord s.free, s.withFree (s.free + 1)) := by
  simp [State.answer, h]

theorem State.answer_of_cons {s : State} {a : Word} {rest : List Word} (h : s.ioAnswers = a :: rest) :
    s.answer = (a, s.withIoAnswers rest) := by
  simp [State.answer, h]

/-- A word read delivers the low byte of an answer at the drawn ports and the whole answer at every other (R78, log 22). -/
theorem toNat_shapeWord (port : Byte) (a : Word) :
    (shapeWord port a).toNat = if port.toNat ∈ byteRegisterPorts then a.toNat % 256 else a.toNat := by
  rw [← toNat_setWidth_lowByte, shapeWord, apply_ite BitVec.toNat]
  simp only [upperByteZero_iff]

/-- A byte read delivers 0 at the drawn ports and the low byte of an answer at every other (R78, log 22). -/
theorem toNat_shapeByte (port : Byte) (a : Word) :
    (shapeByte port a).toNat = if port.toNat ∈ byteRegisterPorts then 0 else a.toNat % 256 := by
  rw [← toNat_setWidth_lowByte, shapeByte, apply_ite BitVec.toNat]
  simp only [upperByteZero_iff]
  rfl

/-- What a read of this width at a port delivers of an answer (R78, R270, log 22). -/
def readValue (port : Byte) (width : Nat) (a : Word) : Word := if width = 2 then shapeWord port a else shapeByte port a

theorem toNat_readValue_of_mem {port : Byte} (h : port.toNat ∈ byteRegisterPorts) (width : Nat) (a : Word) :
    (readValue port width a).toNat = if width = 2 then a.toNat % 256 else 0 := by
  rw [readValue, apply_ite BitVec.toNat, toNat_shapeWord, toNat_shapeByte, if_pos h, if_pos h]

theorem toNat_readValue_of_not_mem {port : Byte} (h : port.toNat ∉ byteRegisterPorts) (width : Nat) (a : Word) :
    (readValue port width a).toNat = if width = 2 then a.toNat else a.toNat % 256 := by
  rw [readValue, apply_ite BitVec.toNat, toNat_shapeWord, toNat_shapeByte, if_neg h, if_neg h]

/-- A byte read delivers a byte (R161). -/
theorem toNat_readValue_lt_of_byte {width : Nat} (h : width = 1) (port : Byte) (a : Word) :
    (readValue port width a).toNat < 256 := by
  rw [readValue, if_neg (by omega), toNat_shapeByte]
  split_ifs <;> omega

/-- A read at a drawn port delivers a byte, and in its even byte 00h (R78). -/
theorem toNat_readValue_lt_of_mem {port : Byte} (h : port.toNat ∈ byteRegisterPorts) (width : Nat) (a : Word) :
    (readValue port width a).toNat < 256 ∧ (width = 1 → (readValue port width a).toNat = 0) := by
  rw [toNat_readValue_of_mem h]
  split_ifs <;> omega

/-- A byte read, or a word read of an even port, succeeds (R71, D19). -/
theorem ioRead_eq_ok {port : Byte} {width : Nat} (hw : width = 2 ∨ width = 1) (he : width = 2 → port.toNat % 2 = 0) (s : State) :
    s.ioRead port width =
      .ok (readValue port width s.answer.1, s.answer.2.record (.input port width (readValue port width s.answer.1))) := by
  rcases hw with rfl | rfl
  · simp only [State.ioRead, readValue, lsb_eq_false_of_even (he rfl), Bool.false_eq_true, if_true, if_false]
  · rfl

/-- The state an IN leaves: the environment's answer taken, the access recorded, Rd written. -/
def State.afterIn (s : State) (rd : RegNum) (port : Byte) (width : Nat) : State :=
  (s.answer.2.record (.input port width (readValue port width s.answer.1))).setX rd (readValue port width s.answer.1)

/-- IN in privileged mode, of a byte or at an even port, completes (R270). -/
theorem exec_ofIn_privileged {e : PortEa} {s : State} (hp : s.flag.p = true)
    (he : (ioPort s e).2 = 2 → (portOf (ioPort s e).1).toNat % 2 = 0) (rd : RegNum) :
    exec (.ofIn rd e) s = .next (s.afterIn rd (portOf (ioPort s e).1) (ioPort s e).2) := by
  rw [exec_ofIn, doIn, gated_privileged hp, ioRead_eq_ok (ioPort_width s e) he, Access.run_ok]
  rfl

section
variable (s : State) (rd : RegNum) (port : Byte) (width : Nat)

@[simp] theorem State.x_afterIn : (s.afterIn rd port width).x rd = readValue port width s.answer.1 := State.x_setX _ _ _

@[simp] theorem State.ioAnswers_afterIn : (s.afterIn rd port width).ioAnswers = s.answer.2.ioAnswers := State.ioAnswers_set _ _ _

@[simp] theorem State.free_afterIn : (s.afterIn rd port width).free = s.answer.2.free := State.free_set _ _ _

@[simp] theorem State.ioTrace_afterIn :
    (s.afterIn rd port width).ioTrace = s.ioTrace ++ [.input port width (readValue port width s.answer.1)] := by
  rw [State.afterIn, State.ioTrace_setX, State.answer_eq]
  rfl

/-- Every field of the machine that IN does not write is as before (R270). -/
theorem State.afterIn_frame :
    sameRegsBut [s.reg rd] s (s.afterIn rd port width) ∧ (s.afterIn rd port width).flag = s.flag ∧
      sameBytes s (s.afterIn rd port width) ∧ (s.afterIn rd port width).halted = s.halted ∧
      (s.afterIn rd port width).pending = s.pending ∧ (s.afterIn rd port width).lowerLimit = s.lowerLimit ∧
      (s.afterIn rd port width).upperLimit = s.upperLimit ∧ (s.afterIn rd port width).requests = s.requests := by
  rw [State.afterIn, State.answer_eq]
  obtain ⟨hregs, hflag, hbytes, ⟨hhalted, hpending, hlower, hupper, -, -, hrequests⟩, -⟩ := onlyRegs_setX
    (((s.withIoAnswers s.answer.2.ioAnswers).withFree s.answer.2.free).record
      (.input port width (readValue port width s.answer.1))) rd (readValue port width s.answer.1)
  refine ⟨fun x hx => (hregs x hx).trans ?_, hflag, hbytes, hhalted, hpending, hlower, hupper, hrequests⟩
  rw [State.get_record, State.get_withFree, State.get_withIoAnswers]

end

/-! ## Writes (R271, R345, R350) -/

/-- What a write of this width sends of a word (R161). -/
def sentValue (width : Nat) (w : Word) : Word := if width = 2 then w else (lowByte w).setWidth 16

theorem toNat_sentValue (width : Nat) (w : Word) :
    (sentValue width w).toNat = if width = 2 then w.toNat else w.toNat % 256 := by
  rw [sentValue]
  split_ifs
  · rfl
  · exact toNat_setWidth_lowByte w

/-- The limit register at the ports `base` and `base + 1` as a number, after a write: a word at `base` replaces it, a byte there its high
byte, a byte at the next port its low byte (R63, R71, R345, log 19). -/
def limitAfter (base old : Nat) (port : Byte) (width v : Nat) : Nat :=
  if width = 2 ∧ port.toNat = base then v
  else if width = 1 ∧ port.toNat = base then v * 256 + old % 256
  else if width = 1 ∧ port.toNat = base + 1 then old / 256 * 256 + v
  else old

theorem toNat_replaceHigh (w : Word) (b : Byte) : (replaceHigh w b).toNat = b.toNat * 256 + w.toNat % 256 := by
  rw [replaceHigh, toNat_wordOfBytes, toNat_lowByte]

theorem toNat_replaceLow (w : Word) (b : Byte) : (replaceLow w b).toNat = w.toNat / 256 * 256 + b.toNat := by
  rw [replaceLow, toNat_wordOfBytes, toNat_highByte]

/-- The limit registers after a word write of a port (R345). -/
theorem State.limits_limitsWord (s : State) (port : Byte) (w : Word) :
    (s.limitsWord port w).lowerLimit.toNat = limitAfter 0xF4 s.lowerLimit.toNat port 2 w.toNat ∧
      (s.limitsWord port w).upperLimit.toNat = limitAfter 0xF6 s.upperLimit.toNat port 2 w.toNat := by
  unfold State.limitsWord
  split <;> simp_all [limitAfter]

/-- The limit registers after a byte write of a port (R63, log 19). -/
theorem State.limits_limitsByte (s : State) (port b : Byte) :
    (s.limitsByte port b).lowerLimit.toNat = limitAfter 0xF4 s.lowerLimit.toNat port 1 b.toNat ∧
      (s.limitsByte port b).upperLimit.toNat = limitAfter 0xF6 s.upperLimit.toNat port 1 b.toNat := by
  unfold State.limitsByte
  split <;> simp_all [limitAfter, toNat_replaceHigh, toNat_replaceLow]

/-- The state with the limit registers that a write of this width at a port leaves. -/
def State.limitsWritten (s : State) (port : Byte) (width : Nat) (w : Word) : State :=
  if width = 2 then s.limitsWord port w else s.limitsByte port (lowByte w)

theorem State.limitsWritten_eq (s : State) (port : Byte) (width : Nat) (w : Word) :
    s.limitsWritten port width w = (s.withLowerLimit (s.limitsWritten port width w).lowerLimit).withUpperLimit
      (s.limitsWritten port width w).upperLimit := by
  unfold State.limitsWritten
  split_ifs
  · exact State.limitsWord_eq s port w
  · exact State.limitsByte_eq s port (lowByte w)

/-- The limit registers after a write, from the value sent. -/
theorem State.limits_limitsWritten {width : Nat} (hw : width = 2 ∨ width = 1) (s : State) (port : Byte) (w : Word) :
    (s.limitsWritten port width w).lowerLimit.toNat = limitAfter 0xF4 s.lowerLimit.toNat port width (sentValue width w).toNat ∧
      (s.limitsWritten port width w).upperLimit.toNat =
        limitAfter 0xF6 s.upperLimit.toNat port width (sentValue width w).toNat := by
  rcases hw with rfl | rfl
  · exact State.limits_limitsWord s port w
  · rw [toNat_sentValue, if_neg (by decide), ← toNat_lowByte]
    exact State.limits_limitsByte s port (lowByte w)

/-- A byte write, or a word write of an even port, succeeds (R71, D19). -/
theorem ioWrite_eq_ok {port : Byte} {width : Nat} (hw : width = 2 ∨ width = 1) (he : width = 2 → port.toNat % 2 = 0) (s : State)
    (w : Word) :
    s.ioWrite port width w = .ok ((s.limitsWritten port width w).record (.output port width (sentValue width w))) := by
  rcases hw with rfl | rfl
  · simp only [State.ioWrite, State.limitsWritten, sentValue, lsb_eq_false_of_even (he rfl), Bool.false_eq_true, if_true, if_false]
  · rfl

/-- OUT in privileged mode, of a byte or at an even port, completes (R271). -/
theorem exec_ofOut_privileged {e : PortEa} {s : State} (hp : s.flag.p = true)
    (he : (ioPort s e).2 = 2 → (portOf (ioPort s e).1).toNat % 2 = 0) (rd : RegNum) :
    exec (.ofOut rd e) s = .next ((s.limitsWritten (portOf (ioPort s e).1) (ioPort s e).2 (s.x rd)).record
      (.output (portOf (ioPort s e).1) (ioPort s e).2 (sentValue (ioPort s e).2 (s.x rd)))) := by
  rw [exec_ofOut, doOut, gated_privileged hp, ioWrite_eq_ok (ioPort_width s e) he, Access.run_ok]

/-! ## The statements -/

/-- Settles O37: IN is an answer of the environment taken, shaped by port and width, recorded and written to Rd. -/
theorem inReadsWhatTheEnvironmentAnswers : Obligations.InReadsWhatTheEnvironmentAnswers := by
  rintro rd e s port _ hp hport rfl heven
  obtain rfl := eq_portOf_of_toNat hport
  obtain ⟨hregs, hflag, hbytes, hhalted, hpending, hlower, hupper, hrequests⟩ :=
    State.afterIn_frame s rd (portOf (ioPort s e).1) (ioPort s e).2
  refine ⟨_, _, exec_ofIn_privileged hp heven rd, State.x_afterIn .., State.ioTrace_afterIn .., hregs, hflag, hbytes, hhalted,
    hpending, hlower, hupper, hrequests, fun hbyte => toNat_readValue_lt_of_byte hbyte _ _,
    fun hmem => toNat_readValue_lt_of_mem hmem _ _, fun hnil => ?nil, fun a rest hcons => ?cons⟩
  case nil => rw [State.ioAnswers_afterIn, State.answer_of_nil hnil, State.ioAnswers_withFree, hnil]
  case cons =>
    rw [State.ioAnswers_afterIn, State.free_afterIn, State.answer_of_cons hcons]
    exact ⟨rfl, rfl, fun hmem => toNat_readValue_of_mem hmem _ a, fun hmem => toNat_readValue_of_not_mem hmem _ a⟩

/-- Settles O38: OUT is a write of the limit registers, if the port is one of theirs, and a record of the value sent. -/
theorem outSendsRdAndSetsTheLimits : Obligations.OutSendsRdAndSetsTheLimits := by
  rintro rd e s port _ hp hport rfl heven
  obtain rfl := eq_portOf_of_toNat hport
  obtain ⟨hlower, hupper⟩ := State.limits_limitsWritten (ioPort_width s e) s (portOf (ioPort s e).1) (s.x rd)
  refine ⟨_, _, exec_ofOut_privileged hp heven rd, toNat_sentValue _ _, ?trace, hlower, hupper, ?frame⟩
  all_goals rw [State.limitsWritten_eq]
  case trace => rfl
  case frame =>
    refine ⟨fun x _ => ?_, rfl, fun _ => rfl, rfl, rfl, rfl, rfl, rfl⟩
    rw [State.get_record, State.get_withUpperLimit, State.get_withLowerLimit]

end Sys2Proof.Machine
end

section
/-! SUPPORT. The stack and the trap return (47_stack_return.md R280 to R284): what PUSH, POP, RET and RETI answer from what the push, the
pop or the trap return answers, what a pop and a trap return leave, and the proofs of the statements O43, O44, O45 and O46. -/

namespace Sys2Proof.Machine

/-! ## Frames one after the other -/

/-- A change of registers is a change of registers and of no bytes. -/
theorem onlyRegsBytes_nil_iff {xs : List Reg} {s t : State} : onlyRegsBytes xs [] s t ↔ onlyRegs xs s t := by
  simp [onlyRegsBytes, onlyRegs, sameBytesBut, sameBytes]

theorem onlyRegs.trans {xs ys : List Reg} {s t u : State} (h : onlyRegs xs s t) (h' : onlyRegs ys t u) :
    onlyRegs (xs ++ ys) s u :=
  onlyRegsBytes_nil_iff.1 ((onlyRegsBytes_nil_iff.2 h).trans_onlyRegs h')

theorem onlyRegs.mono {xs ys : List Reg} {s t : State} (h : onlyRegs xs s t) (hsub : xs ⊆ ys) : onlyRegs ys s t := by
  obtain ⟨hregs, hrest⟩ := h
  exact ⟨fun x hx => hregs x fun hxs => hx (hsub hxs), hrest⟩

theorem onlyRegs.reg_eq {xs : List Reg} {s t : State} (h : onlyRegs xs s t) (r : RegNum) : t.reg r = s.reg r := by
  obtain ⟨-, hflag, -⟩ := h
  rw [State.reg, State.reg, hflag]

/-! ## The instructions, from the answer of their stack operation -/

theorem exec_push_of_ok {rd : RegNum} {s t : State} (hrd : s.reg rd ≠ s.reg spNum) (h : s.push (s.x rd) = .ok t) :
    exec (.push rd) s = .next t := by
  change doPush rd s = _
  rw [doPush, namesSp_of_ne hrd, h]
  rfl

theorem exec_pop_of_ok {rd : RegNum} {s t : State} {w : Word} (hrd : s.reg rd ≠ s.reg spNum) (h : s.pop = .ok (w, t)) :
    exec (.pop rd) s = .next (t.setX rd w) := by
  change doPop rd s = _
  rw [doPop, namesSp_of_ne hrd, h]
  rfl

theorem exec_ret_of_ok {s t : State} {w : Word} (h : s.pop = .ok (w, t)) : exec .ret s = .next (t.withPc w) := by
  change doRet s = _
  rw [doRet, h, Access.run_ok]

theorem exec_reti_of_ok {s t : State} (hp : s.flag.p = true) (h : s.trapReturn = .ok t) : exec .reti s = .next t := by
  change doReti s = _
  rw [doReti, if_pos hp, h, Access.run_ok]

/-- PUSH and POP of the stack pointer in use are refused before any access (R281, R282, D35). -/
theorem exec_push_or_pop_of_sp {rd : RegNum} {s : State} {i : Instr} (hi : i = .push rd ∨ i = .pop rd)
    (hrd : s.reg rd = s.reg spNum) : exec i s = .refused .stackPointerOperand := by
  have hsp : s.namesSp rd = true := State.namesSp_iff.2 hrd
  rcases hi with rfl | rfl
  · exact if_pos hsp
  · exact if_pos hsp

/-! ## What a pop and a trap return leave -/

/-- A pop at an address that may be read: the word there, SP past it, and nothing else changes (R280, D3). -/
theorem pop_completes {s : State} {w : Word} (h : readableWord s .read (s.x spNum) w) :
    ∃ t, s.pop = .ok (w, t) ∧ t.x spNum = s.x spNum + 2#16 ∧ onlyRegs [s.reg spNum] s t :=
  ⟨_, pop_of_readable h, State.x_setX s spNum _, onlyRegs_setX s spNum _⟩

/-- A pop in privileged mode is a pop through SSP (R22, R280). -/
theorem pop_privileged {s : State} {w : Word} (hp : s.flag.p = true) (h : readableWord s .read s.ssp w) :
    s.pop = .ok (w, s.withSsp (s.ssp + 2#16)) := by
  have hsp := State.x_sp_privileged hp
  rw [pop_of_readable (hsp ▸ h), hsp, State.setX_sp_privileged hp]

/-- What a trap return in privileged mode leaves: FLAG and PC from the two words on the system stack, SSP past them (R284, D26). -/
def State.trapReturned (s : State) (f w : Word) : State := ((s.withSsp (s.ssp + 4#16)).withFlag (Flag.ofWord f)).withPc w

/-- A write of SSP is in no check of an access and in no byte of memory. -/
theorem readableWord_withSsp {s : State} {kind : AccessKind} {v a w : Word} :
    readableWord (s.withSsp v) kind a w ↔ readableWord s kind a w := Iff.rfl

/-- The first word popped is FLAG only after the second pop, so both pops go through SSP (D26). -/
theorem trapReturn_eq_ok {s : State} {f w : Word} (hp : s.flag.p = true) (hf : readableWord s .read s.ssp f)
    (hw : readableWord s .read (s.ssp + 2#16) w) : s.trapReturn = .ok (s.trapReturned f w) := by
  have hfour : s.ssp + 2#16 + 2#16 = s.ssp + 4#16 := by rw [BitVec.add_assoc]; rfl
  have hpop : (s.withSsp (s.ssp + 2#16)).pop = .ok (w, s.withSsp (s.ssp + 4#16)) := by
    rw [← hfour]
    exact pop_privileged hp (readableWord_withSsp.2 hw)
  exact Access.bind_eq_ok.2 ⟨_, pop_privileged hp hf, Access.map_eq_ok.2 ⟨_, hpop, rfl⟩⟩

theorem sameRegsBut_trapReturned (s : State) (f w : Word) : sameRegsBut [.ssp, .pc] s (s.trapReturned f w) := by
  intro x hx
  cases x with
  | g _ | usp => rfl
  | ssp | pc => simp at hx

/-! ## The statements -/

/-- Settles O43: PUSH is a push of Rd, or it is refused before the push. -/
theorem pushStoresAtTheNewTop : Obligations.PushStoresAtTheNewTop := by
  intro rd s
  refine ⟨fun hrd hw => ?_, exec_push_or_pop_of_sp (.inl rfl)⟩
  obtain ⟨t, hpush, hsp, hword, hframe⟩ := push_completes (s.x rd) hw
  exact ⟨t, exec_push_of_ok hrd hpush, hword, hsp, hframe⟩

/-- Settles O44: POP is a pop and a write of Rd, which leaves SP because Rd is another register; or it is refused before the pop. -/
theorem popTakesTheTop : Obligations.PopTakesTheTop := by
  intro rd s
  refine ⟨fun hrd w hw => ?_, exec_push_or_pop_of_sp (.inr rfl)⟩
  obtain ⟨t, hpop, hsp, hframe⟩ := pop_completes hw
  have hne : t.reg spNum ≠ t.reg rd := by
    rw [hframe.reg_eq, hframe.reg_eq]
    exact hrd.symm
  have hset : onlyRegs [s.reg rd] t (t.setX rd w) := hframe.reg_eq rd ▸ onlyRegs_setX t rd w
  exact ⟨_, exec_pop_of_ok hrd hpop, State.x_setX t rd w, (State.x_setX_ne t rd spNum w hne).trans hsp,
    (hframe.trans hset).mono (List.Perm.swap _ _ _).subset⟩

/-- Settles O45: RET is a pop and a write of PC. -/
theorem retTakesPcFromTheStack : Obligations.RetTakesPcFromTheStack := by
  intro s w hw
  obtain ⟨t, hpop, hsp, hframe⟩ := pop_completes hw
  exact ⟨_, exec_ret_of_ok hpop, rfl, (State.x_sp_withPc t w).trans hsp, hframe.trans (onlyRegs_withPc t w)⟩

/-- Settles O46: RETI is a trap return, and the bits of the first word are the flags. -/
theorem retiRestoresFlagAndPc : Obligations.RetiRestoresFlagAndPc := by
  intro s f w hp hf hw
  exact ⟨s.trapReturned f w, exec_reti_of_ok hp (trapReturn_eq_ok hp hf hw), rfl, rfl, rfl, rfl, rfl, rfl, rfl, rfl,
    sameRegsBut_trapReturned s f w, fun _ => rfl, ⟨rfl, rfl, rfl, rfl, rfl, rfl, rfl⟩, rfl⟩

end Sys2Proof.Machine
end

section
/-! SUPPORT. What trap entry leaves, what each instruction can do to the mode and to what user mode must not reach (60_exceptions.md R325,
R335, R341 to R343), and the proofs of the statements O40, O47, O50, O58 and O59. -/

namespace Sys2Proof.Machine

/-! ## Trap entry that was done (R335) -/

/-- A word access that passes the checks is to an even address (R66, R67). -/
theorem even_of_checkWord_ok {s : State} {kind : AccessKind} {a : Word} (h : s.checkWord kind a = .ok ()) : a.toNat % 2 = 0 := by
  obtain ⟨hlsb, -⟩ := State.checkWord_ok.1 h
  rw [lsb_eq_decide, decide_eq_false_iff_not] at hlsb
  omega

/-- Trap entry that answers a next state, from whatever state, leaves what the spec's trap entry leaves. -/
theorem trapEffect_of_trapEntry {c : Cause} {retpc : Word} {s t : State} (h : trapEntry c retpc s = .next t) :
    trapEffect c.number retpc s t := by
  obtain ⟨hc, -, handler, hv, rfl⟩ := trapEntry_next h
  have heven : s.ssp.toNat % 2 = 0 := by
    have h2 := even_of_checkWord_ok hc
    bv_omega
  exact trapEffect_trapped heven (by rwa [mem_trapped])

/-- Trap entry ends in privileged mode (R335, R343). -/
theorem privileged_of_trapEntry {c : Cause} {retpc : Word} {s t : State} (h : trapEntry c retpc s = .next t) : t.flag.p = true := by
  obtain ⟨hflag, -⟩ := trapEffect_of_trapEntry h
  rw [hflag]

theorem Cause.number_lt (c : Cause) : c.number < 16 := by
  cases c with
  | interrupt n => exact n.isLt.trans (by decide)
  | exception e => cases e <;> decide

/-- A word that may be written and that memory holds may be read in privileged mode: the protection rejects nothing there (R72, R75). -/
theorem readableWord_of_written {s t : State} {a w : Word} (hp : t.flag.p = true) (hc : s.checkWord .write a = .ok ())
    (hw : holdsWord t a w) : readableWord t .read a w := by
  obtain ⟨-, -, hreserved, hrom⟩ := State.checkWord_ok.1 hc
  have hregion := writable_of_regionOf hreserved (hrom rfl)
  exact ⟨even_of_checkWord_ok hc, State.rejects_privileged hp _ _, hregion.imp_right (by omega), hw⟩

/-- A trap return right after trap entry finds the two words that trap entry pushed, whatever the handler's PC (R338). -/
theorem trapReturn_of_trapEntry {c : Cause} {retpc : Word} {s t : State} (h : trapEntry c retpc s = .next t) (pc' : Word) :
    (t.withPc pc').trapReturn = .ok ((t.withPc pc').trapReturned s.flag.toWord retpc) := by
  obtain ⟨hc2, hc4, -⟩ := trapEntry_next h
  obtain ⟨-, hssp, -, hret, hflag, -⟩ := trapEffect_of_trapEntry h
  have hp := privileged_of_trapEntry h
  have htop : t.ssp + 2#16 = s.ssp - 2#16 := by rw [hssp]; bv_omega
  rw [sub_two_sub_two] at hc4
  refine trapReturn_eq_ok hp (readableWord_withPc.2 ?_) (readableWord_withPc.2 ?_)
  · rw [State.ssp_withPc, hssp]
    exact readableWord_of_written hp hc4 hflag
  · rw [State.ssp_withPc, htop]
    exact readableWord_of_written hp hc2 hret

/-! ## What an instruction of user mode keeps (R342) -/

/-- Nothing that user mode must not reach is touched: E and P, `halted`, the requests, the limit registers, the I/O trace and the
environment's plans are as before, and so is SSP in user mode, where no register number names it (R342). -/
def KeepsSystem (s t : State) : Prop := sameMode s t ∧ samePlatform s t ∧ (s.flag.p = false → t.ssp = s.ssp)

theorem KeepsSystem.refl (s : State) : KeepsSystem s s := ⟨⟨rfl, rfl⟩, ⟨rfl, rfl, rfl, rfl, rfl, rfl, rfl⟩, fun _ => rfl⟩

theorem KeepsSystem.withPc {s t : State} (h : KeepsSystem s t) (w : Word) : KeepsSystem s (t.withPc w) := h
theorem KeepsSystem.withMem {s t : State} (h : KeepsSystem s t) (m : Memory) : KeepsSystem s (t.withMem m) := h
theorem KeepsSystem.withVcsz {s t : State} (h : KeepsSystem s t) (f : Vcsz) : KeepsSystem s (t.withVcsz f) := h
theorem KeepsSystem.withFree {s t : State} (h : KeepsSystem s t) (n : Nat) : KeepsSystem s (t.withFree n) := h

/-- A write by register number reaches SSP in privileged mode only (R22, R23). -/
theorem KeepsSystem.setX {s t : State} (h : KeepsSystem s t) (r : RegNum) (w : Word) : KeepsSystem s (t.setX r w) := by
  obtain ⟨⟨he, hp⟩, ⟨hhalted, hpending, hlower, hupper, htrace, hanswers, hrequests⟩, hssp⟩ := h
  obtain ⟨hregs, hflag, -, ⟨hhalted', hpending', hlower', hupper', htrace', hanswers', hrequests'⟩, -⟩ := onlyRegs_setX t r w
  refine ⟨by rw [sameMode, hflag]; exact ⟨he, hp⟩, ⟨hhalted'.trans hhalted, hpending'.trans hpending, hlower'.trans hlower,
    hupper'.trans hupper, htrace'.trans htrace, hanswers'.trans hanswers, hrequests'.trans hrequests⟩, fun huser => ?_⟩
  have hne : Reg.ssp ∉ [t.reg r] := by simpa using (State.reg_user_ne_ssp (hp.trans huser) r).symm
  exact (hregs .ssp hne).trans (hssp huser)

theorem PairEffect.keepsSystem {rd : RegNum} {s t : State} (h : PairEffect rd s t) : KeepsSystem s t := by
  obtain ⟨hi, lo, f, n, rfl⟩ := h
  exact ((((KeepsSystem.refl s).setX rd lo).setX (highOf rd) hi).withVcsz f).withFree n

theorem push_keepsSystem {s t : State} {w : Word} (h : s.push w = .ok t) : KeepsSystem s t := by
  obtain ⟨-, rfl⟩ := State.push_ok.1 h
  exact ((KeepsSystem.refl s).withMem _).setX spNum _

theorem pop_keepsSystem {s t : State} {w : Word} (h : s.pop = .ok (w, t)) : KeepsSystem s t := by
  obtain ⟨-, -, rfl⟩ := State.pop_ok.1 h
  exact (KeepsSystem.refl s).setX spNum _

/-! ## What an instruction can do to the mode -/

/-- The ways an instruction can end: with nothing reached that user mode must not reach; as a privileged instruction that stays in privileged
mode; as RETI by its trap return; or by taking an exception (R341 to R343). -/
inductive ModeEffect (v : View) (s t : State) : Prop where
  | keeps (h : KeepsSystem s t)
  | privileged (hp : s.flag.p = true) (hp' : t.flag.p = true)
  | reti (hv : v = .reti) (hp : s.flag.p = true) (h : s.trapReturn = .ok t)
  | trap {ex : Exc} (h : raise ex s = .next t)

/-- An own effect that keeps what user mode must not reach, or an exception taken. -/
theorem ModeEffect.of_or_raise {v : View} {s t : State} {P : Prop} (h : P ∨ ∃ ex, raise ex s = .next t)
    (hP : P → KeepsSystem s t) : ModeEffect v s t := by
  rcases h with h | ⟨ex, h⟩
  · exact .keeps (hP h)
  · exact .trap h

/-- A gated instruction that keeps P runs in privileged mode, or it is the trap (R341). -/
theorem ModeEffect.of_gated {v : View} {o : PrivOp} {s s' t : State} (h : gated o s (.next s') = .next t)
    (hp : s'.flag.p = s.flag.p) : ModeEffect v s t := by
  rcases gated_next h with ⟨hpriv, h⟩ | ⟨-, h⟩
  · obtain rfl := Host.Outcome.next.inj h
    exact .privileged hpriv (hp.trans hpriv)
  · exact .trap h

theorem ioRead_flag {s t : State} {port : Byte} {width : Nat} {v : Word} (h : s.ioRead port width = .ok (v, t)) :
    t.flag = s.flag := by
  obtain ⟨-, -, rfl⟩ := State.ioRead_ok h
  rw [State.answer_eq]
  rfl

theorem ioWrite_flag {s t : State} {port : Byte} {width : Nat} {w : Word} (h : s.ioWrite port width w = .ok t) :
    t.flag = s.flag := by
  obtain ⟨-, rfl⟩ := State.ioWrite_ok h
  split
  · rw [State.limitsWord_eq]
    rfl
  · rw [State.limitsByte_eq]
    rfl

theorem modeEffect_input {v : View} {rd : RegNum} {e : PortEa} {s t : State} (h : doIn rd e s = .next t) : ModeEffect v s t := by
  rcases doIn_next h with ⟨hp, v, s', hr, rfl⟩ | ⟨ex, h⟩
  · refine .privileged hp ?_
    rw [State.setX, State.flag_set, ioRead_flag hr, hp]
  · exact .trap h

theorem modeEffect_output {v : View} {rd : RegNum} {e : PortEa} {s t : State} (h : doOut rd e s = .next t) : ModeEffect v s t := by
  rcases doOut_next h with ⟨hp, hw⟩ | ⟨ex, h⟩
  · exact .privileged hp (by rw [ioWrite_flag hw, hp])
  · exact .trap h

theorem modeEffect_st {v : View} {rd : RegNum} {e : MemEa} {s t : State} (h : doSt rd e s = .next t) : ModeEffect v s t := by
  rcases doSt_next h with ⟨-, -, rfl⟩ | ⟨-, -, rfl⟩ | ⟨ex, h⟩
  · exact .keeps ((KeepsSystem.refl s).withMem _)
  · exact .keeps ((KeepsSystem.refl s).withMem _)
  · exact .trap h

theorem doJump_keepsSystem {cc : Cond} {e : JumpEa} {s t : State} (h : doJump cc e s = .next t) : KeepsSystem s t := by
  obtain rfl := Host.Outcome.next.inj h
  split
  · exact (KeepsSystem.refl s).withPc _
  · exact KeepsSystem.refl s

/-- What the instruction of a view can do to the mode, operation by operation. -/
theorem exec_ofView_modeEffect {v : View} {s t : State} (h : exec (.ofView v) s = .next t) : ModeEffect v s t := by
  cases v with
  | no =>
    obtain rfl := Host.Outcome.next.inj h
    exact .keeps (.refl s)
  | ldFlag rd =>
    obtain rfl := Host.Outcome.next.inj h
    exact .keeps ((KeepsSystem.refl s).setX rd _)
  | ea o rd e => exact .of_or_raise (doEa_next ((exec_ofEa o rd e s).symm.trans h)) PairEffect.keepsSystem
  | st rd e => exact modeEffect_st ((exec_ofSt rd e s).symm.trans h)
  | jump cc e => exact .keeps (doJump_keepsSystem ((exec_ofJump cc e s).symm.trans h))
  | call e =>
    refine .of_or_raise (doCall_next ((exec_ofCall e s).symm.trans h)) ?_
    rintro ⟨s', hp, rfl⟩
    exact (push_keepsSystem hp).withPc _
  | input rd e => exact modeEffect_input ((exec_ofIn rd e s).symm.trans h)
  | output rd e => exact modeEffect_output ((exec_ofOut rd e s).symm.trans h)
  | push rd =>
    obtain ⟨-, h⟩ := doPush_next h
    exact .of_or_raise h push_keepsSystem
  | pop rd =>
    obtain ⟨-, h⟩ := doPop_next h
    refine .of_or_raise h ?_
    rintro ⟨w, s', hp, rfl⟩
    exact (pop_keepsSystem hp).setX _ _
  | ret =>
    refine .of_or_raise (doRet_next h) ?_
    rintro ⟨w, s', hp, rfl⟩
    exact (pop_keepsSystem hp).withPc _
  | reti =>
    rcases doReti_next h with ⟨hp, hr⟩ | ⟨ex, h⟩
    · exact .reti rfl hp hr
    · exact .trap h
  | ei | di | halt => exact .of_gated h rfl
  | svc => exact .trap h

theorem exec_modeEffect {i : Instr} {s t : State} (h : exec i s = .next t) : ModeEffect i.view s t :=
  exec_ofView_modeEffect (by rwa [Instr.ofView_view])

/-! ## Confinement of a step from user mode (R341 to R343) -/

/-- What the statement about user mode asks of a step from `s` to `t`. -/
def Confined (s t : State) : Prop :=
  t.halted = s.halted ∧ t.lowerLimit = s.lowerLimit ∧ t.upperLimit = s.upperLimit ∧ t.ioTrace = s.ioTrace ∧
    (t.flag.p = false → t.flag.e = s.flag.e ∧ t.ssp = s.ssp) ∧
    (t.flag.p = true → t.flag.e = false ∧ t.ssp = s.ssp - 4#16 ∧ sameRegsBut [.ssp, .pc] s t ∧
      holdsWord t t.ssp s.flag.toWord ∧ ∃ n, n < 16 ∧ holdsWord t (vectorAt n) t.pc)

theorem confined_of_trapEntry {c : Cause} {retpc : Word} {s t : State} (h : trapEntry c retpc s = .next t) : Confined s t := by
  have hp := privileged_of_trapEntry h
  obtain ⟨hflag, hssp, hregs, -, hold, hpc, -, -, hhalted, hlower, hupper, htrace, -⟩ := trapEffect_of_trapEntry h
  refine ⟨hhalted, hlower, hupper, htrace, fun hp' => absurd (hp.symm.trans hp') (by decide), fun _ => ?_⟩
  exact ⟨by rw [hflag], hssp, hregs, hssp ▸ hold, c.number, c.number_lt, hpc⟩

theorem KeepsSystem.confined {s t : State} (h : KeepsSystem s t) (huser : s.flag.p = false) : Confined s t := by
  obtain ⟨⟨he, hp⟩, ⟨hhalted, -, hlower, hupper, htrace, -⟩, hssp⟩ := h
  exact ⟨hhalted, hlower, hupper, htrace, fun _ => ⟨he, hssp huser⟩, fun hp' => by simp [hp, huser] at hp'⟩

/-- In user mode an instruction keeps what it must not reach, or it ends by trap entry: RETI and the privileged set cannot run (R341). -/
theorem confined_of_exec {i : Instr} {s t : State} (huser : s.flag.p = false) (h : exec i s = .next t) : Confined s t := by
  cases exec_modeEffect h with
  | keeps h => exact h.confined huser
  | privileged hp => simp [huser] at hp
  | reti _ hp => simp [huser] at hp
  | trap h => exact confined_of_trapEntry h

@[simp] theorem State.ssp_receive (s : State) : s.receive.ssp = s.ssp := State.get_receive s .ssp

/-! Confinement looks at neither the requests of the boundary, nor the choice among them, nor the PC at the start. -/

theorem Confined.of_receive {s t : State} (h : Confined s.receive t) : Confined s t := by
  simpa [Confined, sameRegsBut] using h

theorem Confined.of_withFree {s t : State} {n : Nat} (h : Confined (s.withFree n) t) : Confined s t := by
  simpa [Confined, sameRegsBut] using h

theorem Confined.of_withPc {s t : State} {w : Word} (h : Confined (s.withPc w) t) : Confined s t := by
  obtain ⟨hhalted, hlower, hupper, htrace, huser, hpriv⟩ := h
  refine ⟨hhalted, hlower, hupper, htrace, huser, fun hp => ?_⟩
  obtain ⟨he, hssp, hregs, hrest⟩ := hpriv hp
  obtain ⟨hpc, -⟩ := onlyRegs_withPc s w
  exact ⟨he, hssp, fun x hx => (hregs x hx).trans (hpc x fun hm => hx (List.mem_cons_of_mem _ hm)), hrest⟩

/-! ## Leaving privileged mode (R343) -/

/-- An instruction that goes from privileged mode to user mode is RETI, and the word it popped as FLAG has bit 6 clear (R284, R343). -/
theorem reti_of_exec_leaves_privilege {i : Instr} {s t : State} (hp : s.flag.p = true) (h : exec i s = .next t)
    (hp' : t.flag.p = false) : i.view = .reti ∧ ∃ f, holdsWord s s.ssp f ∧ f.getLsbD 6 = false := by
  cases exec_modeEffect h with
  | keeps h =>
    obtain ⟨⟨-, hmode⟩, -⟩ := h
    simp [hmode, hp] at hp'
  | privileged _ hpriv => simp [hpriv] at hp'
  | reti hv _ hr =>
    obtain ⟨f, w, hf, -, -, -, rfl⟩ := State.trapReturn_ok hp hr
    exact ⟨hv, f, holdsWord_iff.2 hf, hp'⟩
  | trap h => simp [privileged_of_trapEntry h] at hp'

/-! ## Privileged instructions in user mode (R325, R341) -/

/-- In user mode a gated instruction is the trap: every instruction asked about is in the privileged set (R341, D20). -/
theorem gated_user {s : State} (h : s.flag.p = false) (o : PrivOp) (k : Result) : gated o s k = raise .privilegeViolation s := by
  have hset : privSet o = true := by cases o <;> rfl
  rw [gated, hset, h]
  rfl

theorem exec_reti_user {s : State} (h : s.flag.p = false) : exec .reti s = raise .privilegeViolation s := by
  change doReti s = _
  rw [doReti, h, userReti]
  rfl

/-- The privileged set and RETI in user mode are the PrivilegeViolation exception (R325, R341, log 16). -/
theorem exec_privileged_user {i : Instr} {s : State} (hp : s.flag.p = false)
    (hi : i = .ei ∨ i = .di ∨ i = .halt ∨ i = .reti ∨ (∃ rd e, i = .ofIn rd e) ∨ (∃ rd e, i = .ofOut rd e)) :
    exec i s = raise .privilegeViolation s := by
  rcases hi with rfl | rfl | rfl | rfl | ⟨rd, e, rfl⟩ | ⟨rd, e, rfl⟩
  · exact gated_user hp .ei _
  · exact gated_user hp .di _
  · exact gated_user hp .halt _
  · exact exec_reti_user hp
  · rw [exec_ofIn, doIn, gated_user hp]
  · rw [exec_ofOut, doOut, gated_user hp]

/-! ## The statements -/

/-- Settles O58: a step from user mode is a trap entry or an instruction, and either is confined. -/
theorem userModeIsConfined : Obligations.UserModeIsConfined := by
  intro s t huser h
  obtain ⟨-, ⟨c, retpc, n, h⟩ | ⟨i, w1, ws, pc', -, -, h⟩⟩ := step_next h
  · exact (confined_of_trapEntry h).of_withFree.of_receive
  · exact (confined_of_exec (by simpa using huser) h).of_withPc.of_receive

/-- Settles O59: trap entry ends in privileged mode, and of the instructions only RETI clears P. -/
theorem privilegeIsLeftOnlyByReti : Obligations.PrivilegeIsLeftOnlyByReti := by
  intro s t hp h hp'
  obtain ⟨-, ⟨c, retpc, n, h⟩ | ⟨i, w1, ws, pc', hw, he, h⟩⟩ := step_next h
  · simp [privileged_of_trapEntry h] at hp'
  · obtain ⟨hv, f, hf, hbit⟩ := reti_of_exec_leaves_privilege (by simpa using hp) h hp'
    rw [encode, hv] at he
    obtain ⟨rfl, -⟩ := List.cons.inj he
    rw [holdsWord_iff, State.mem_withPc, State.mem_receive, State.ssp_withPc, State.ssp_receive, ← holdsWord_iff] at hf
    exact ⟨hw, f, hf, hbit⟩

/-- Settles O40. -/
theorem privilegedInstructionsTrapInUserMode : Obligations.PrivilegedInstructionsTrapInUserMode :=
  fun _ _ hp hready hi => trap_of_eq_raise (ex := .privilegeViolation) (exec_privileged_user hp hi) hready

/-- Settles O47: SVC is the exception with the number 15, and an exception is a trap entry. -/
theorem trapEntryAndSvcEffect : Obligations.TrapEntryAndSvcEffect :=
  ⟨fun _ retpc _ hready => trapEntry_of_trapReady retpc hready, fun _ hready => trap_of_eq_raise (ex := .svc) rfl hready⟩

/-- Settles O50: the trap return pops the words that trap entry pushed, and FLAG survives being pushed and popped. -/
theorem retiUndoesTrapEntry : Obligations.RetiUndoesTrapEntry := by
  intro c retpc pc' s t h
  obtain ⟨-, hssp, hregs, -⟩ := trapEffect_of_trapEntry h
  have hp := privileged_of_trapEntry h
  refine ⟨_, exec_reti_of_ok (s := t.withPc pc') hp (trapReturn_of_trapEntry h pc'), Flag.ofWord_toWord s.flag, rfl, ?_⟩
  intro x hx
  cases x with
  | g n => exact hregs (.g n) (by simp)
  | usp => exact hregs .usp (by simp)
  | ssp =>
    change t.ssp + 4#16 = s.ssp
    rw [hssp, BitVec.sub_add_cancel]
  | pc => simp at hx

end Sys2Proof.Machine
end

section
/-! SUPPORT. EI, DI and HALT in privileged mode, a step of a halted CPU (48_system.md R300, R301, R304), the boundary at which an interrupt
is taken, the fetches that give no instruction (60_exceptions.md R321, R326, R331, R333), and the proofs of the statements O41, O42, O52
and O53. -/

namespace Sys2Proof.Machine

/-! ## EI, DI and HALT (R300, R301, R304) -/

/-- A write of E leaves every other flag, every register, every byte and all the rest (R300, R301). -/
theorem withE_frame (s : State) (b : Bool) :
    (s.withE b).flag = { s.flag with e := b } ∧ sameRegsBut [] s (s.withE b) ∧ sameBytes s (s.withE b) ∧
      samePlatform s (s.withE b) ∧ (s.withE b).free = s.free :=
  ⟨rfl, fun x _ => State.get_withFlag s _ x, fun _ => rfl, ⟨rfl, rfl, rfl, rfl, rfl, rfl, rfl⟩, rfl⟩

/-- A halted CPU takes no step (R26, R304, D28). -/
theorem step_of_halted {s : State} (h : s.halted = true) : step s = .fault .halted := by
  rw [step, cycle, if_pos h]

/-! ## The interrupt taken at a boundary (R331, R333) -/

theorem State.mem_pendingSources_iff {s : State} {n : Fin 10} : n ∈ s.pendingSources ↔ s.pending.getLsbD n.val = true := by
  simp [State.pendingSources]

/-- Where a request is pending there is a pending source. -/
theorem State.pendingSources_ne_nil {s : State} (h : s.pending ≠ 0) : s.pendingSources ≠ [] := by
  intro hnil
  refine h (BitVec.eq_of_getLsbD_eq fun k hk => ?_)
  have hk' : (⟨k, hk⟩ : Fin 10) ∉ s.pendingSources := by simp [hnil]
  rw [State.mem_pendingSources_iff, Bool.not_eq_true] at hk'
  rw [hk']
  exact BitVec.getLsbD_zero.symm

/-- A source that alone is pending is the list of the pending sources. -/
theorem State.pendingSources_of_only {s : State} {n : Fin 10} (h : ∀ m : Fin 10, s.pending.getLsbD m.val = true ↔ m = n) :
    s.pendingSources = [n] := by
  have hfilter : s.pendingSources = (List.finRange 10).filter fun m => decide (m = n) :=
    List.filter_congr fun m _ => by rw [Bool.eq_iff_iff, h m, decide_eq_true_iff]
  have hsingle : ∀ k : Fin 10, (List.finRange 10).filter (fun m => decide (m = k)) = [k] := by decide
  rw [hfilter, hsingle]

/-- With E = 1 and a request pending some interrupt is accepted (R331, R333). -/
theorem State.exists_acceptInterrupt {s : State} (he : s.flag.e = true) (hp : s.pending ≠ 0) :
    ∃ n s', s.acceptInterrupt = some (n, s') := by
  unfold State.acceptInterrupt
  rw [if_pos he]
  split
  · next hnil => exact absurd hnil (State.pendingSources_ne_nil hp)
  · exact ⟨_, _, rfl⟩
  · exact ⟨_, _, rfl⟩

/-- With E = 1 the only pending interrupt is accepted, and no choice is drawn (R331). -/
theorem State.acceptInterrupt_of_only {s : State} {n : Fin 10} (he : s.flag.e = true)
    (h : ∀ m : Fin 10, s.pending.getLsbD m.val = true ↔ m = n) : s.acceptInterrupt = some (n, s) := by
  simp only [State.acceptInterrupt, if_pos he, State.pendingSources_of_only h]

/-- A step at whose boundary an interrupt is accepted is its trap entry (R26, R331). -/
theorem step_of_interrupt {s s' : State} {n : Fin 10} (hh : s.halted = false) (hi : s.receive.acceptInterrupt = some (n, s')) :
    step s = trapEntry (.interrupt n) s'.pc s' := by
  simp [step, cycle, hh, boundary, hi]

/-! ## Fetches that give no instruction (R321, R326) -/

/-- A fetch that raises an exception saves the address of the word it fetched (R321, D23). -/
theorem fetchWord_of_raised {s : State} {e : Exc} (h : s.checkWord .fetch s.pc = .raised e) (k : Word → State → Fetched) :
    s.fetchWord k = .trap e s.pc := by
  simp only [State.fetchWord, readWord_of_raised h]

theorem fetchWord_of_refused {s : State} {r : Refusal} (h : s.checkWord .fetch s.pc = .refused r) (k : Word → State → Fetched) :
    s.fetchWord k = .refused r := by
  simp only [State.fetchWord, readWord_of_refused h]

/-- Of an instruction of two words the first is fetched, and then the second at PC + 2 (R26, R115). -/
theorem fetch_of_first_of_two {s : State} {w1 : Word} {f : Word → Instr} (hr : readableWord s .fetch s.pc w1)
    (hd : decodeFirst w1 = .two f) : fetch s = (s.withPc (s.pc + 2#16)).fetchWord fun w2 st2 => .run (f w2) st2 := by
  rw [fetch, fetchWord_of_readable hr]
  simp only [hd]

/-- A blank cell of the opcode map traps after one word (R119, R326). -/
theorem fetch_of_undefined {s : State} {w1 : Word} (hr : readableWord s .fetch s.pc w1) (hd : decodeFirst w1 = .undefined) :
    fetch s = .trap .undefinedInstruction (s.pc + 2#16) := by
  rw [fetch, fetchWord_of_readable hr]
  simp only [hd, State.pc_withPc]

theorem fetch_of_reserved {s : State} {w1 : Word} {why : Reserved} (hr : readableWord s .fetch s.pc w1)
    (hd : decodeFirst w1 = .reserved why) : fetch s = .refused (reservedRefusal why) := by
  rw [fetch, fetchWord_of_readable hr]
  simp only [hd]

/-- The first of two words decodes to an instruction that waits for its second word (R115). -/
theorem decodeFirst_of_encode_two {i : Instr} {w1 w2 : Word} (h : encode i = [w1, w2]) : ∃ f, decodeFirst w1 = .two f := by
  obtain ⟨v1, ws, he, hc⟩ := complete_decodeFirst_encode i
  obtain ⟨rfl, rfl⟩ := List.cons.inj (h.symm.trans he)
  rcases First.complete_eq_some hc with ⟨-, hnil⟩ | ⟨f, -, hd, -⟩
  · exact nomatch hnil
  · exact ⟨f, hd⟩

/-- A first word that is no blank cell and begins no instruction is reserved (R120, R121). -/
theorem decodeFirst_of_no_encode {w1 : Word} (hblank : (w1.extractLsb' 8 8).toNat ∉ blankCells)
    (hnone : ∀ i rest, encode i ≠ w1 :: rest) : ∃ why, decodeFirst w1 = .reserved why := by
  cases hd : decodeFirst w1 with
  | undefined => exact absurd ((decodeFirst_eq_undefined_iff w1).1 hd) hblank
  | reserved why => exact ⟨why, rfl⟩
  | one i => exact absurd (encode_of_complete_decodeFirst (ws := []) (by rw [hd, First.complete])) (hnone i [])
  | two f => exact absurd (encode_of_complete_decodeFirst (ws := [0]) (by rw [hd, First.complete])) (hnone (f 0) [0])

theorem add_two_even {a : Word} (h : a.toNat % 2 = 0) : (a + 2#16).toNat % 2 = 0 := by bv_omega

/-! ## A step whose fetch gives no instruction -/

section
variable {s : State} (hh : s.halted = false) (hn : noInterrupt s.receive)
include hh hn

theorem step_of_fetch_trap {e : Exc} {retpc : Word} (h : fetch s.receive = .trap e retpc) :
    step s = trapEntry (.exception e) retpc s.receive := by
  rw [step_of_no_interrupt hh (acceptInterrupt_none hn), h, Fetched.finish]

theorem step_of_fetch_refused {r : Refusal} (h : fetch s.receive = .refused r) : step s = .refused r := by
  rw [step_of_no_interrupt hh (acceptInterrupt_none hn), h, Fetched.finish]

/-- The check of the fetch at PC raises: the trap has PC as return address (R321). -/
theorem step_of_first_raised {e : Exc} (h : s.receive.checkWord .fetch s.pc = .raised e) :
    step s = trapEntry (.exception e) s.pc s.receive := by
  rw [← State.pc_receive s] at h ⊢
  exact step_of_fetch_trap hh hn (fetchWord_of_raised h _)

theorem step_of_first_refused {r : Refusal} (h : s.receive.checkWord .fetch s.pc = .refused r) : step s = .refused r := by
  rw [← State.pc_receive s] at h
  exact step_of_fetch_refused hh hn (fetchWord_of_refused h _)

variable {w1 : Word} (hr : readableWord s.receive .fetch s.pc w1)
include hr

/-- The check of the fetch of the second word raises: the trap has the address of that word as return address (R321, log 18). -/
theorem step_of_second_raised {f : Word → Instr} {e : Exc} (hd : decodeFirst w1 = .two f)
    (h : s.receive.checkWord .fetch (s.pc + 2#16) = .raised e) :
    step s = trapEntry (.exception e) (s.pc + 2#16) s.receive := by
  rw [← State.pc_receive s] at h hr ⊢
  refine step_of_fetch_trap hh hn ((fetch_of_first_of_two hr hd).trans ?_)
  exact fetchWord_of_raised (s := s.receive.withPc (s.receive.pc + 2#16)) h _

theorem step_of_second_refused {f : Word → Instr} {r : Refusal} (hd : decodeFirst w1 = .two f)
    (h : s.receive.checkWord .fetch (s.pc + 2#16) = .refused r) : step s = .refused r := by
  rw [← State.pc_receive s] at h hr
  refine step_of_fetch_refused hh hn ((fetch_of_first_of_two hr hd).trans ?_)
  exact fetchWord_of_refused (s := s.receive.withPc (s.receive.pc + 2#16)) h _

theorem step_of_blank_cell (hd : decodeFirst w1 = .undefined) :
    step s = trapEntry (.exception .undefinedInstruction) (s.pc + 2#16) s.receive := by
  rw [← State.pc_receive s] at hr ⊢
  exact step_of_fetch_trap hh hn (fetch_of_undefined hr hd)

theorem step_of_reserved_word {why : Reserved} (hd : decodeFirst w1 = .reserved why) : step s = .refused (reservedRefusal why) := by
  rw [← State.pc_receive s] at hr
  exact step_of_fetch_refused hh hn (fetch_of_reserved hr hd)

end

/-! ## The statements -/

/-- Settles O41: in privileged mode EI and DI are one write of E. -/
theorem eiDiWriteOnlyE : Obligations.EiDiWriteOnlyE := by
  intro s hp
  exact ⟨⟨s.withE true, gated_privileged hp .ei _, withE_frame s true⟩, ⟨s.withE false, gated_privileged hp .di _, withE_frame s false⟩⟩

/-- Settles O42: in privileged mode HALT is one write of `halted`, which the step looks at first. -/
theorem haltStopsTheMachine : Obligations.HaltStopsTheMachine := by
  refine ⟨fun s hp => ⟨s.withHalted true, gated_privileged hp .halt _, rfl, fun x _ => State.get_withHalted s true x, rfl,
    fun _ => rfl, ?platform⟩, fun _ => step_of_halted⟩
  case platform => exact ⟨rfl, rfl, rfl, rfl, rfl, rfl, rfl⟩

/-- Settles O53: the interrupt accepted is a pending one, and only the draw among several changes the state before its trap entry. -/
theorem enabledPendingInterruptIsTaken : Obligations.EnabledPendingInterruptIsTaken := by
  refine fun s hh => ⟨fun he hp => ?some, fun he n hn => ?only, fun he => ?none⟩
  case some =>
    obtain ⟨n, s', ha⟩ := State.exists_acceptInterrupt he hp
    obtain ⟨-, hpending, hs'⟩ := State.acceptInterrupt_some ha
    refine ⟨n, s'.free, hpending, ?_⟩
    rw [step_of_interrupt hh ha, hs', State.pc_withFree, State.pc_receive, State.free_withFree]
  case only => rw [step_of_interrupt hh (State.acceptInterrupt_of_only he hn), State.pc_receive]
  case none => exact step_of_no_interrupt hh (acceptInterrupt_none (.inl he))

/-- Settles O52, check by check for each of the two words, and then by what the first word decodes to. -/
theorem badFetchesTrapOrAreRefused : Obligations.BadFetchesTrapOrAreRefused := by
  intro s hh hn
  refine ⟨fun ho => step_of_first_raised hh hn (checkWord_of_odd ho),
    fun he hr => step_of_first_raised hh hn (checkWord_of_rejected he hr),
    fun he hr h1 h2 => step_of_first_refused hh hn (checkWord_of_reserved he hr h1 h2),
    fun w1 hw => ⟨fun ⟨i, w2, hi⟩ => ?second, fun hblank => ?blank, fun hblank hnone => ?reserved⟩⟩
  case second =>
    obtain ⟨f, hd⟩ := decodeFirst_of_encode_two hi
    have heven := add_two_even (even_of_checkWord_ok (checkWord_of_readable (by decide) hw))
    exact ⟨fun hr => step_of_second_raised hh hn hw hd (checkWord_of_rejected heven hr),
      fun hr h1 h2 => step_of_second_refused hh hn hw hd (checkWord_of_reserved heven hr h1 h2)⟩
  case blank => exact step_of_blank_cell hh hn hw ((decodeFirst_eq_undefined_iff w1).2 hblank)
  case reserved =>
    obtain ⟨why, hd⟩ := decodeFirst_of_no_encode hblank hnone
    have hstep := step_of_reserved_word hh hn hw hd
    cases why with
    | mustBeZero => exact .inl hstep
    | jumpConditionD => exact .inr hstep

end Sys2Proof.Machine
end
